-- ==== Sys2Proof/Word.lean ====
section
/-! DEFINITION. Word.lean: the bit vectors of the model, and the queue, cell and port numbers.
A register, a field of a record and a number format's code are bit vectors; counts and addresses of memory cells are
plain numbers. -/

namespace Sys2Proof

/-- One byte (R8). -/
abbrev Byte := BitVec 8
/-- A 16-bit field; also a BF16 code (R31). -/
abbrev Half := BitVec 16
/-- A 32-bit register or field; also an FP32 code (R31). -/
abbrev Word := BitVec 32
/-- A 64-bit register or field, or an address of the device (R134). -/
abbrev DWord := BitVec 64

/-- An FP32 code (R31). -/
abbrev F32 := BitVec 32
/-- A BF16 code (R31). -/
abbrev Bf16 := BitVec 16
/-- An FP8 E4M3 code (R31). -/
abbrev Fp8 := BitVec 8

/-- A cell id, 4·y + x (R15). -/
abbrev CellId := Fin 16
/-- A hardware queue number (R401). -/
abbrev QueueId := Fin 64
/-- An Aelis port number (R487). -/
abbrev PortId := Fin 8

end Sys2Proof
end

