-- ==== Sys2Proof/Syntax.lean ====
section
/-! DEFINITION. Syntax.lean: the commands. `Instr` has one constructor per row of spec/opcode_table.json; the
structures before it are the operands that rows share. What the outside decides (a measured voltage, whether a read met
a bit error, what the host answered) is an operand too. -/

namespace Sys2Proof

/-! ### Power, clocks and life cycle -/

/-- The rails, in the row order of R74. -/
inductive Rail where
  | vcore | vmem | vlnk | vio18 | vaux33 | vprg
  deriving DecidableEq, Repr

/-- The firmware banks of R648. -/
inductive ImageBank where
  | uhlegA | uhlegB | runtimeA | runtimeB
  deriving DecidableEq, Repr

/-- What a Uhleg boot samples and meets: the pins of R117 and R727, banks in which a bit has flipped (R672), and
persisted entries of which no intact record remains (R578). -/
structure BootSample where
  bootSafe : Bool
  devId : BitVec 3
  trayId : Byte
  flipped : List ImageBank
  lost : List (Half × Byte)
  /-- the start-failure record of stages 1 to 4 run for the endpoint in PEAT, when they fail (R115) -/
  peat : Option Word
  deriving DecidableEq, Repr

/-- One codeword found wrong in a granule (R153 to R156): the granule by its local address over 128, and the bit
corrected, or none when it is uncorrectable. -/
structure CodewordError where
  granule : Nat
  codeword : Fin 8
  bit : Option (BitVec 8)
  deriving DecidableEq, Repr

/-- What the converters of an array measure: for each of TV0 to TV3, for each run of it, every column's interval in 1/4,096
RCLK as it is at trim 512, which the trims scale (R366, R384). -/
abbrev Measurement := List (List (List Int))

/-- What an array measures in a recalibration (R387): before the new trims and with them. -/
structure RecalResult where
  first : Measurement
  again : Measurement
  deriving DecidableEq, Repr

/-- What an array measures in stage 9 (R388), and in its recalibration should that fail. -/
structure ArrayTest where
  measured : Measurement
  recal : RecalResult
  deriving DecidableEq, Repr

/-- Where an uncorrectable error of R227 or R240 lay in a cell. -/
inductive CellUnit where
  | buffer | accumulator | statistics | sequencer | latch | fabric
  deriving DecidableEq, Repr

/-- What the training of one channel found (R158, R159): data, check-bit and parity connections and command/address connections
that failed, the errors of steps 2 and 5, and the narrowest eyes in 1/64 of a unit interval. -/
structure ChannelTraining where
  channel : Fin 512
  badData : Nat
  badCommand : Nat
  commandErrors : Nat
  readEye : Fin 65
  writeEye : Fin 65
  pathErrors : Nat
  deriving DecidableEq, Repr

/-- Where the serving runtime puts the structures of the Starter tree (R328): local addresses of the node table, the token area
and the chain heads. -/
structure TreePlace where
  nodes : Nat
  tokens : Nat
  chains : Nat
  deriving DecidableEq, Repr

/-- How the work of one start stage came out (R101): the detail of its failure (R107), or none, in stages 2, 3, 4 and 7; in stage 8 the
error code that the boot ROM or the runtime reports (R453); and what the stage measured. -/
structure StageWork where
  failed : Option Half
  /-- stage 8: the runtime bank reads with a flipped bit (R672) -/
  flipped : Bool
  /-- stage 8: where the runtime builds its tree (R452) -/
  tree : TreePlace
  /-- stage 5: what training found in channels (R158); one that is not listed finds every connection good and every eye open -/
  training : List ChannelTraining
  /-- stage 6 and later: codewords found wrong; one that several read passes correct is listed once for each (R160) -/
  errors : List CodewordError
  /-- stage 9: what arrays measure (R388); one that is not listed measures what its test vectors should give -/
  reed : List (CellId × ArrayTest)
  /-- stage 7: the unit of the failing cell (0x4000:02) -/
  unit : Option CellUnit
  deriving DecidableEq, Repr

/-- A start attempt: BOOT_SAFE at the release of RESET_N, the stages that ended, in order, and the µs they took. A list
cut short leaves the next stage in progress. -/
structure Attempt where
  bootSafe : Bool
  stages : List StageWork
  micros : Nat
  /-- as in `BootSample` -/
  peat : Option Word
  deriving DecidableEq, Repr

/-! ### Memory -/

/-- Where a request to memory comes from: the sources of R148, in their order, and the patrol scrub with the write-backs of
corrected granules (R154, R157). -/
inductive MemSource where
  | dma (c : CellId)
  | sequencer (c : CellId)
  | oven
  | core (n : Fin 8)
  | pcie
  | port (p : PortId)
  | scrub
  deriving DecidableEq, Repr

/-- The priority classes of R142. -/
inductive MemClass where
  | p0 | p1 | p2 | p3
  deriving DecidableEq, Repr

/-- A request of one granule: the local address, the class, and for a write the bytes that are enabled (R149). -/
structure MemReq where
  source : MemSource
  cls : MemClass
  addr : Nat
  write : Option (List (Option Byte))
  deriving DecidableEq, Repr

/-- How a host read was answered (R549). -/
inductive HostReply where
  | data (bytes : List Byte)
  | failed
  | outstanding
  deriving DecidableEq, Repr

/-- What the hardware meets while a command runs: wrong codewords (R154, R155), cell units found uncorrectable (R227,
R240) or corrected, slice lines found uncorrectable (R177) or corrected, flits that the router of a cell corrected (R233), and the host's answers
in order (R549). -/
structure Hw where
  mem : List CodewordError
  cellBad : List (CellId × CellUnit × Nat)
  cellFixed : List CellId
  sliceBad : List Nat
  sliceFixed : List Nat
  flitFixed : List CellId
  host : List HostReply
  deriving DecidableEq, Repr

/-- The two halves of a request's life in a channel (R143): the requests of one VCLK cycle reach their queues, or a channel
issues its choice, which has waited so many MCLK (R145), while others arrive in the same cycle (R166). -/
inductive MemEvent where
  | enter (arrivals : List MemReq) (hw : Hw)
  | issue (channel : Fin 512) (wait : Nat) (hw : Hw) (arrivals : List MemReq)
  deriving DecidableEq, Repr

/-! ### Ledger access -/

/-- What a core writes to its Ledger port before GO (R588). -/
structure PortRequest where
  command : Byte
  sub : Byte
  index : Half
  first : Half
  count : Half
  length : Half
  tag : Half
  data : List Byte
  deriving DecidableEq, Repr

/-- The path of a Ledger request (R573): the BAR0 mailbox, the cores' Ledger port, a CAN FD REQUEST frame with its
identifier (R580) and data, or a CAN FD download that is whole (R584). -/
inductive LedgerPath where
  | mailbox
  | corePort (request : PortRequest)
  | can (ident : BitVec 29) (data : List Byte)
  | download (requester : Fin 8)
  deriving DecidableEq, Repr

/-- What the rail monitors read (R77, R610): mV and mA by rail, and mV at VPRG_SENSE. -/
structure Monitors where
  milliVolts : List Nat
  milliAmps : List Nat
  vprgSense : Nat
  deriving DecidableEq, Repr

/-- A Ledger request as it arrives, whether the NOR store of a persisted value verifies (R578), what the rail monitors read
meanwhile, and what the hardware meets (R174, R177, R680). -/
structure LedgerCall where
  path : LedgerPath
  storeOk : Bool
  monitors : Monitors
  hw : Hw
  deriving DecidableEq, Repr

/-- How an access reaches a register: the host through BAR0, or an on-die core. -/
inductive AccessPath where
  | host
  | core (n : Fin 8)
  deriving DecidableEq, Repr

/-! ### Queue commands -/

/-- Where a command record stands: in the queue's ring, with its record index (R403), or a node of a running bake
(R420). -/
inductive Place where
  | ring (position : Nat)
  | node (bake : Nat) (index : Nat)
  deriving DecidableEq, Repr

/-- The header of a command record, R405, without its opcode. -/
structure Header where
  barrier : Bool
  irq : Bool
  mask : BitVec 16
  enable : Bool
  counter : BitVec 12
  deriving DecidableEq, Repr

/-- The issue of one record: the queue, the place of the record, its header, and what the hardware meets. -/
structure Issue where
  queue : QueueId
  place : Place
  header : Header
  hw : Hw
  deriving DecidableEq, Repr

/-- Operands of WAIT (R408). -/
structure WaitOps where
  counter : Half
  mode : Byte
  target : DWord
  deriving DecidableEq, Repr

/-- Operands of ADVANCE and SET_EVENT (R408): the amount, or the value. -/
structure EventOps where
  counter : Half
  amount : DWord
  deriving DecidableEq, Repr

/-- Operands of WRITE (R408). -/
structure WriteOps where
  size : Byte
  dest : Byte
  addr : DWord
  value : DWord
  deriving DecidableEq, Repr

/-- Operands of BAKE (R408). -/
structure BakeOps where
  recipe : Half
  count : Byte
  params : DWord
  deriving DecidableEq, Repr

/-- Operands of ENQUEUE (R408). -/
structure EnqueueOps where
  target : Byte
  flags : Byte
  count : Half
  source : DWord
  deriving DecidableEq, Repr

/-- Operands of RING (R408). -/
structure RingOps where
  target : Byte
  wakes : Half
  deriving DecidableEq, Repr

/-- Operands of PARK (R408). -/
structure ParkOps where
  recipe : Half
  count : Byte
  slots : Half
  params : DWord
  deriving DecidableEq, Repr

/-- Operands of RECIPE_LOAD (R408). -/
structure RecipeLoadOps where
  recipe : Half
  length : Word
  addr : DWord
  deriving DecidableEq, Repr

/-- Operands of QUEUE_CTL (R408), without the action, which is the row. -/
structure ControlOps where
  target : Byte
  first : Half
  count : Half
  deriving DecidableEq, Repr

/-- Operands of DMA_COPY (R409). -/
structure DmaOps where
  sourceKind : Byte
  destKind : Byte
  repeats : Half
  length : Word
  source : DWord
  dest : DWord
  sourceStride : Word
  destStride : Word
  multicast : BitVec 16
  deriving DecidableEq, Repr

/-- Operands of ATOMIC (R409), without the operation code, which is the row. -/
structure AtomicOps where
  flags : Byte
  result : Word
  addr : DWord
  value : DWord
  compare : DWord
  n : Half
  count : Half
  event : Half
  ordinal : Half
  deriving DecidableEq, Repr

/-- Operands of KNEAD (R409). -/
structure KneadOps where
  format : Byte
  mode : Byte
  variant : Byte
  inFormat : Byte
  firstLane : Half
  lanes : Half
  columns : Half
  tile : Word
  window : Word
  inBase : Word
  inStride : Word
  loadBase : Word
  loadStride : Word
  deriving DecidableEq, Repr

/-- Operands of DRAIN (R409). -/
structure DrainOps where
  format : Byte
  firstLane : Half
  lanes : Half
  columns : Half
  outBase : Word
  outStride : Word
  deriving DecidableEq, Repr

/-- Operands of SIEVE (R409), without the sub-operation, which is the row. -/
structure SieveOps where
  aSource : Byte
  formats : Byte
  flags : Byte
  n : Word
  vectors : Half
  a : Word
  b : Word
  c : Word
  d : Word
  stride : Word
  immF : F32
  immU : Word
  first : Half
  deriving DecidableEq, Repr

/-- Operands of ROPE (R409). -/
structure RopeOps where
  pairing : Byte
  source : Byte
  heads : Half
  d : Half
  r : Half
  firstLane : Half
  vectors : Half
  table : Word
  positions : Word
  inBase : Word
  inStride : Word
  outBase : Word
  outStride : Word
  deriving DecidableEq, Repr

/-- Operands of STAT (R409), without the action, which is the row. -/
structure StatOps where
  firstRow : Half
  rows : Half
  offset : Word
  deriving DecidableEq, Repr

/-- Operands of KV_APPEND (R409). -/
structure AppendOps where
  pool : Byte
  layer : Half
  position : Word
  count : Half
  source : Word
  list : DWord
  deriving DecidableEq, Repr

/-- Operands of KV_ATTEND (R409). -/
structure AttendOps where
  pool : Byte
  layer : Half
  queries : Half
  event : Half
  table : DWord
  scale : F32
  queryBase : Word
  queryStride : Word
  outBase : Word
  outStride : Word
  deriving DecidableEq, Repr

/-- Operands of BUILD_TABLES and PACK_DELTAS (R409). -/
structure DeltaOps where
  format : Byte
  variant : Byte
  flags : Byte
  firstTile : Word
  tiles : Word
  tensorTag : Word
  baseTag : Word
  baseStream : DWord
  variantFull : DWord
  histogram : DWord
  descriptor : DWord
  deriving DecidableEq, Repr

/-- Operands of REED_RUN (R409). -/
structure ReedRunOps where
  g0 : Byte
  groups : Byte
  mode : Byte
  gain : Byte
  vectors : Byte
  dest : Byte
  firstSlot : Byte
  inBase : Word
  inStride : Word
  frame : Word
  deriving DecidableEq, Repr

/-- Operands of REED_READOUT (R409). -/
structure ReadoutOps where
  firstSlot : Byte
  slots : Byte
  columns : Half
  format : Byte
  flags : Byte
  scales : Word
  m : F32
  outBase : Word
  outStride : Word
  deriving DecidableEq, Repr

/-- Operands of REED_PROGRAM (R409). -/
structure ReedProgramOps where
  group : Byte
  source : Word
  status : Word
  tag : DWord
  deriving DecidableEq, Repr

/-- What one iteration of a programming meets (R377, R379): the conductance in nS to which its pulse brings a cell of the
row, by column and side (true is the N cell); and the cell at which a driver reaches its limit, if one does. -/
structure PulseIteration where
  cells : List (Fin 256 × Bool × Nat)
  limit : Option (Fin 256 × Bool)
  deriving DecidableEq, Repr

/-! ### Serving -/

/-- Where the runtime places the structures of a request's sequence (R285, R300, R308): its home cell; the local addresses of its
page list, its record table and its row statistics; and the entries of the record table, each the global address of a record and
its spill base. -/
structure SequencePlace where
  request : Word
  home : CellId
  list : Nat
  table : Nat
  stats : Nat
  records : List (DWord × DWord)
  deriving DecidableEq, Repr

/-- A BAKE of a step (R347): the recipe, the local address of its parameter block, and the parameters. -/
structure PlannedBake where
  recipe : Half
  block : Nat
  params : List DWord
  deriving DecidableEq, Repr

/-- How the runtime runs a step (R21, R347): the kernel queue, the event counter that it waits on, the local addresses of the query
tables, and the bakes in order. -/
structure StepPlan where
  queue : QueueId
  counter : BitVec 12
  tables : List Nat
  bakes : List PlannedBake
  deriving DecidableEq, Repr

/-- How the runtime prefills a request (R335, R336): its step, and for the copy of a partial page how many slots are moved at once and
by which offset of a cell buffer. -/
structure PrefillPlan where
  request : Word
  step : StepPlan
  slots : Nat
  staging : Nat
  deriving DecidableEq, Repr

/-- What the runtime chooses at an assembly: the frames of peers' leases that it may use, pool by pool, as its lease lists hold them
(R476), the places of the sequences it admits, the decode step, and the prefills. -/
structure AssemblyPlan where
  lease : List (Byte × Word)
  places : List SequencePlace
  decode : Option StepPlan
  prefills : List PrefillPlan
  deriving DecidableEq, Repr

/-- Consecutive logits in a cell (R469): in its buffer from an offset on, or in an accumulator lane from a column on. -/
structure LogitSpan where
  cell : CellId
  lane : Option (Fin 256)
  first : Nat
  count : Nat
  deriving DecidableEq, Repr

/-- Where the last bake of a step has left the logits of one lane, token by token, and of a request with an image the local address of
its encoder output (R462). -/
structure LaneResult where
  logits : List LogitSpan
  encoder : Nat
  deriving DecidableEq, Repr

/-- How a step ended: with a result for each of its lanes, or lost to a guilty-queue reset, with the lane at fault where the queue
fault record names no sequence (R27, R473). -/
inductive StepEnd where
  | sampled (lanes : List LaneResult)
  | lost (culprit : Option Nat)
  deriving DecidableEq, Repr

/-! ### Cores, links and host -/

/-- The read-modify-write operations of an on-die core (R180): the AMOs of RV64, LR and SC. -/
inductive CoreOp where
  | swap | add | xor | and | or | min | max | minu | maxu | lr | sc
  deriving DecidableEq, Repr

/-- What the steps of a training attempt measured (R516): the laser input per wavelength in 10 µW (step 1), receive lanes without
signal (step 2), lanes whose adaptation failed (step 3), the lane number that each receive lane's markers gave and the skew in ps (step
4), the most bit errors of a lane in the 2,112,000,000 bits of step 5, whether codewords and counters locked (step 6), and the
receive power of each lane in µW. -/
structure TrainingRun where
  laser : List Half
  dark : List (Fin 64)
  unadapted : List (Fin 64)
  order : List Nat
  skew : Nat
  errors : Nat
  locked : Bool
  power : List Half
  deriving DecidableEq, Repr

/-- A frame as the light of a port carries it (R491 to R493): the PAM4 levels on the 16 fibers of each of its two codewords. -/
structure FecFrame where
  first : List (List (Fin 4))
  second : List (List (Fin 4))
  deriving DecidableEq, Repr

/-- Why a port goes down from outside a flit (R519): LOS or LASER; the model finds the other causes in the flits and
commands that bring them. -/
inductive LinkLoss where
  | los | laser
  deriving DecidableEq, Repr

/-- A PCIe memory access: offset in the BAR, and the bytes with their enables. -/
structure BarWrite where
  offset : Nat
  bytes : List (Option Byte)
  poisoned : Bool
  deriving DecidableEq, Repr

/-- A unit of the front end: the Oven or a cell sequencer. An uncorrectable error in its state is a cause of a class D halt
that no other command brings (R678), and it may be what does not quiesce (R436, R735). -/
inductive FrontEndUnit where
  | oven
  | sequencer (c : CellId)
  deriving DecidableEq, Repr

/-- What the CAN FD controller meets (R579): an error frame, the transmit errors that put it in bus-off, or the end of
the recovery from bus-off. -/
inductive CanEvent where
  | errorFrame | busOff | recovered
  deriving DecidableEq, Repr

/-- The caches of an on-die core (R678). -/
inductive CoreCache where
  | l1i | l1d | l2
  deriving DecidableEq, Repr

/-! ### The commands -/

/-- The commands of spec/opcode_table.json, one constructor per row, in the table's order. -/
inductive Instr where
  -- power, clocks and life cycle
  | vaux33EntersWindow (boot : BootSample)
  | vaux33LeavesWindow
  | railEntersWindow (rails : List (Rail × Int)) (peat : Option Word)
  | railExcursion (rail : Rail) (milliVolts : Int)
  | rootPllUnlock (refclk : Bool)
  | holdoverExpiry
  | clockReturn (boot : BootSample)
  | lanePllUnlock (port : PortId)
  | resetNAssert (nanoSeconds : Nat) (bootSafe : Bool)
  | startAttempt (a : Attempt)
  | stageTimeout
  | stage10BudgetExpiry
  | perstNAssert
  | perstNRelease (peat : Option Word)
  | uhlegBoot (boot : BootSample)
  | uhlegWatchdogExpiry
  | uhlegTrialTimer
  | enterService (call : LedgerCall)
  | leaveService (call : LedgerCall)
  | halt (call : LedgerCall)
  | drainComplete
  | clearStartCounter (call : LedgerCall)
  | meshSettingsWrite (call : LedgerCall)
  | sensorConversion (sensor : Fin 28) (raw : Option Int) (selfCheck : Bool)
  | classDHalt (frontEnd : Option FrontEndUnit) (hw : Hw)
  -- the Ledger and management
  | ledgerRead (call : LedgerCall)
  | ledgerWrite (call : LedgerCall)
  | ledgerDescribe (call : LedgerCall)
  | segmentDown (ident : BitVec 29) (data : List Byte)
  | segmentTimeout (requester : Fin 8)
  | ledgerStoreCompaction
  | logNorWrite (firstOk repeatOk : Bool)
  | restartManagementCore (call : LedgerCall)
  | setTime (call : LedgerCall)
  | clearErrorHistory (call : LedgerCall)
  | clearStartHistory (call : LedgerCall)
  | unlockResponse (call : LedgerCall)
  | relock (call : LedgerCall)
  | unlockExpiry
  | lockoutExpiry
  | begin (call : LedgerCall)
  | updateData (call : LedgerCall)
  | verify (call : LedgerCall)
  | updateVerified (readBack : List (Nat × Byte))
  | activate (call : LedgerCall)
  | abort (call : LedgerCall)
  -- memory, shared cache and atomics
  | memRequest (e : MemEvent)
  | starvationPromotion (channel : Fin 512)
  | refreshSlot (channel : Fin 512)
  | parityRetry (channel : Fin 512) (replayed writeData : Bool)
  | scrubRead (errors : List CodewordError)
  | scrubPeriodWrite (call : LedgerCall)
  | cachedWindowSizeWrite (call : LedgerCall)
  | addI32 (x : Issue) (o : AtomicOps)
  | addI64 (x : Issue) (o : AtomicOps)
  | addF32 (x : Issue) (o : AtomicOps)
  | minI32 (x : Issue) (o : AtomicOps)
  | minI64 (x : Issue) (o : AtomicOps)
  | minF32 (x : Issue) (o : AtomicOps)
  | maxI32 (x : Issue) (o : AtomicOps)
  | maxI64 (x : Issue) (o : AtomicOps)
  | maxF32 (x : Issue) (o : AtomicOps)
  | swap32 (x : Issue) (o : AtomicOps)
  | swap64 (x : Issue) (o : AtomicOps)
  | cas32 (x : Issue) (o : AtomicOps)
  | cas64 (x : Issue) (o : AtomicOps)
  | lseInit (x : Issue) (o : AtomicOps)
  | lseMerge (x : Issue) (o : AtomicOps)
  | coreAmo (core : Fin 8) (op : CoreOp) (double : Bool) (addr : DWord) (value : DWord) (hw : Hw)
  -- the Oven
  | nop (x : Issue)
  | wait (x : Issue) (o : WaitOps)
  | waitCompletion (queue : QueueId) (place : Place) (hw : Hw)
  | advance (x : Issue) (o : EventOps)
  | setEvent (x : Issue) (o : EventOps)
  | write (x : Issue) (o : WriteOps)
  | bake (x : Issue) (o : BakeOps)
  | enqueue (x : Issue) (o : EnqueueOps)
  | ring (x : Issue) (o : RingOps)
  | park (x : Issue) (o : ParkOps)
  | prooferWakeBake (queue : QueueId) (hw : Hw)
  | recipeLoad (x : Issue) (o : RecipeLoadOps)
  | recipeDrop (x : Issue) (recipe : Half)
  | setLaneWindow (x : Issue) (o : ControlOps)
  | setEventRange (x : Issue) (o : ControlOps)
  | stop (x : Issue) (o : ControlOps)
  | start (x : Issue) (o : ControlOps)
  | reset (x : Issue) (o : ControlOps)
  | unpark (x : Issue) (o : ControlOps)
  -- the cells
  | dmaCopy (x : Issue) (o : DmaOps)
  | knead (x : Issue) (o : KneadOps)
  | drain (x : Issue) (o : DrainOps)
  | sieveAdd (x : Issue) (o : SieveOps)
  | sieveSub (x : Issue) (o : SieveOps)
  | sieveMul (x : Issue) (o : SieveOps)
  | sieveFma (x : Issue) (o : SieveOps)
  | sieveMax (x : Issue) (o : SieveOps)
  | sieveMin (x : Issue) (o : SieveOps)
  | cmp (x : Issue) (o : SieveOps)
  | sel (x : Issue) (o : SieveOps)
  | cvt (x : Issue) (o : SieveOps)
  | exp2 (x : Issue) (o : SieveOps)
  | exp (x : Issue) (o : SieveOps)
  | rcp (x : Issue) (o : SieveOps)
  | log2 (x : Issue) (o : SieveOps)
  | ln (x : Issue) (o : SieveOps)
  | rsqrt (x : Issue) (o : SieveOps)
  | sum (x : Issue) (o : SieveOps)
  | rmax (x : Issue) (o : SieveOps)
  | rmin (x : Issue) (o : SieveOps)
  | scaleCol (x : Issue) (o : SieveOps)
  | statUpdate (x : Issue) (o : SieveOps)
  | topkScan (x : Issue) (o : SieveOps)
  | philox (x : Issue) (o : SieveOps)
  | rope (x : Issue) (o : RopeOps)
  | statInit (x : Issue) (o : StatOps)
  | statRead (x : Issue) (o : StatOps)
  | statWrite (x : Issue) (o : StatOps)
  | kvAppend (x : Issue) (o : AppendOps)
  | kvAttend (x : Issue) (o : AttendOps)
  | buildTables (x : Issue) (o : DeltaOps)
  | packDeltas (x : Issue) (o : DeltaOps)
  -- the Reed arrays
  | reedRun (x : Issue) (o : ReedRunOps)
  | reedRunBegin (cell : CellId)
  | reedContribution (cell : CellId) (hw : Hw)
  | reedReadout (x : Issue) (o : ReadoutOps)
  | reedProgram (x : Issue) (o : ReedProgramOps)
  | testCheck (cell : CellId) (intervals : List (List Int))
  | reedMonitorWindow (cell : CellId)
  | recalibration (cell : CellId) (result : RecalResult)
  | frameSyncEdge (fraction : BitVec 5) (recognizable : Bool)
  -- queue registers
  | doorbell (path : AccessPath) (queue : QueueId) (value : Word)
  | queueEnable (path : AccessPath) (queue : QueueId) (value : Word)
  | restart (path : AccessPath) (queue : QueueId) (value : Word)
  | eventAdvanceRegister (path : AccessPath) (counter : Fin 4096) (low high : Option Word)
  | eventSetRegister (path : AccessPath) (counter : Fin 4096) (low high : Option Word)
  | commandCompletion (queue : QueueId) (place : Place) (pulses : List PulseIteration) (hw : Hw)
  | timeSliceExpiry (unit : FrontEndUnit)
  | watchPeriod
  | guiltyQueueReset (queue : QueueId) (hw : Hw)
  | resetQuiesceTimeout (queue : QueueId) (unit : FrontEndUnit)
  -- the serving runtime
  | ringEnableWrite (path : AccessPath) (value : Word)
  | reqTailWrite (path : AccessPath) (value : Word)
  | tokHeadWrite (path : AccessPath) (value : Word)
  | userqRequest (path : AccessPath) (value : Word)
  | register (path : AccessPath) (finding : Byte)
  | unregister (path : AccessPath)
  | generate (hw : Hw)
  | cancel (hw : Hw)
  | assembly (model : Word) (plan : AssemblyPlan)
  | flushTree (call : LedgerCall)
  | treeEnableWrite (call : LedgerCall)
  | nodeCapacityWrite (call : LedgerCall)
  | poolDescriptorWrite (call : LedgerCall)
  | sampling (number : Nat) (result : StepEnd)
  | heldTokenWrite
  | tokenInterruptInterval
  | runtimeWatchdogExpiry
  | peerLease (list : DWord)
  -- Aelis
  | portTrainingAttempt (port : PortId) (run : TrainingRun)
  | ident (port : PortId) (micros : Nat)
  | frameReceived (port : PortId) (frame : FecFrame)
  | replayTimeout (port : PortId)
  | skip (port : PortId)
  | goodbye (port : PortId)
  | linkDown (port : PortId) (loss : LinkLoss)
  | linkDownHoldExpiry (port : PortId)
  | portEnableWrite (call : LedgerCall)
  | memRead (port : PortId) (hw : Hw)
  | memWrite (port : PortId) (hw : Hw)
  | aelisAtomic (port : PortId) (hw : Hw)
  | pageRead (port : PortId) (hw : Hw)
  | pageWrite (port : PortId) (hw : Hw)
  | readData (port : PortId) (hw : Hw)
  | writeAck (port : PortId) (hw : Hw)
  | atomicRsp (port : PortId) (hw : Hw)
  | pageData (port : PortId) (hw : Hw)
  | pageAck (port : PortId) (hw : Hw)
  -- PCIe
  | bar0RegisterWrite (w : BarWrite)
  | bar2Read (offset length : Nat) (hw : Hw)
  | bar2Write (w : BarWrite) (hw : Hw)
  | d3hot
  | dlDown
  | pcieLinkUp (speed : BitVec 3) (width : BitVec 5) (flit : Bool)
  | completionTimeout (queue : QueueId) (place : Place)
  -- JTAG
  | extest
  | idcode
  | samplePreload (sampled preload : BitVec 27)
  | clamp
  | highz
  | bypass (code : Byte)
  | factoryTest (code : Byte)
  -- the rest
  | uhlegSramError
  | runtimeFailed (error : Half)
  | monitorCheckFailed (sensor : Fin 49) (missed : Bool)
  | coreUncorrectable (core : Fin 8) (cache : CoreCache)
  | timeLoRead (path : AccessPath)
  | returnToD0
  | bar2Resize (size : Nat)
  | msiXEnable (enable functionMask : Bool)
  | canErrorFrame (event : CanEvent)
  deriving DecidableEq, Repr

end Sys2Proof
end

