-- ==== Sys2Proof/Config.lean ====
section
/-! DEFINITION. Config.lean: the free values. Each constant stands for a value the spec leaves open; it has no body, so
that nothing can be proved of it but what holds of every value. The argument is the draw number `State.fresh` of the
model (log entry 17), or the operands the value depends on. -/

namespace Sys2Proof.Config

/-- A byte the spec leaves open, by draw number (an unlock challenge, log entry 7). -/
opaque freeByte : Nat → Byte
/-- An FP32 code the spec leaves unspecified, by draw number and position (R237, R307). -/
opaque freeF32 : Nat → Nat → F32
/-- A column count of the Reed array, by draw number and column; the model brings it within the bound of R370. -/
opaque freeCount : Nat → Nat → Int
/-- The candidate sampled where the spec states no probabilities (log entry 42), by the request's seed and the position. -/
opaque freeToken : DWord → Nat → Nat
/-- The bytes of the factory's image in a bank (log entry 4), by bank. -/
opaque factoryImage : Nat → List Byte
/-- What a counter of a given width holds after it has passed its top, by the width and the sum; the spec states no
wrap and no saturation for such a counter (log entry 18). -/
opaque counterPastTop : Nat → Nat → Nat
/-- The logarithm of the number of records of a ring whose LOG2 register holds a value outside its range (log entry 27). -/
opaque ringLog2 : Nat → Nat

/-- Whether stages 1 to 4 run in PEAT fail, and with which record, where no operand of the command says so (R115, log
entry 23), by draw number. -/
opaque peatFailure : Nat → Option Word

end Sys2Proof.Config
end

