-- ==== Sys2Proof/Machine/Sparse.lean ====
section
/-! DEFINITION. Machine/Sparse.lean: maps kept as plain data in one canonical form. A map is a list of (key, value)
pairs with strictly rising keys and no pair whose value is the one an unlisted key reads as, so that equal maps are equal
lists. Memory is such a map of bytes. -/

namespace Sys2Proof.Machine

/-- A map from numbers, canonical under `Sparse.wf`. -/
abbrev Sparse (α : Type) := List (Nat × α)

/-- The value at a key; an unlisted key reads as `d`. -/
def Sparse.get {α : Type} (d : α) : Sparse α → Nat → α
  | [], _ => d
  | (k, v) :: t, n => if k = n then v else Sparse.get d t n

/-- The map without a key. -/
def Sparse.erase {α : Type} : Sparse α → Nat → Sparse α
  | [], _ => []
  | (k, v) :: t, n => if k = n then Sparse.erase t n else (k, v) :: Sparse.erase t n

/-- The map with a pair listed. -/
def Sparse.put {α : Type} : Sparse α → Nat → α → Sparse α
  | [], n, x => [(n, x)]
  | (k, v) :: t, n, x =>
    if k = n then (n, x) :: t else if n < k then (n, x) :: (k, v) :: t else (k, v) :: Sparse.put t n x

/-- The map with a value written: writing what an unlisted key reads as removes the pair. -/
def Sparse.set {α : Type} [DecidableEq α] (d : α) (m : Sparse α) (n : Nat) (x : α) : Sparse α :=
  if x = d then m.erase n else m.put n x

/-- Every listed key is at least `lo`, keys rise strictly and no listed value is the default. -/
def Sparse.wfFrom {α : Type} [DecidableEq α] (d : α) : Nat → Sparse α → Bool
  | _, [] => true
  | lo, (k, v) :: t => decide (lo ≤ k) && decide (v ≠ d) && Sparse.wfFrom d (k + 1) t

/-- The canonical form. -/
def Sparse.wf {α : Type} [DecidableEq α] (d : α) (m : Sparse α) : Bool := Sparse.wfFrom d 0 m

/-- The canonical form of a memory. -/
abbrev Memory.wf (m : List Host.Cell) : Bool := Sparse.wf 0 m

/-- The map without the keys of [lo, lo + n). -/
def Sparse.clear {α : Type} (m : Sparse α) (lo n : Nat) : Sparse α :=
  m.filter fun p => p.1 < lo || lo + n ≤ p.1

/-! ### Bytes in a map -/

/-- `n` consecutive values from a key on. -/
def Sparse.read {α : Type} (d : α) (m : Sparse α) (a : Nat) : Nat → List α
  | 0 => []
  | n + 1 => m.get d a :: Sparse.read d m (a + 1) n

/-- Consecutive values written from a key on. -/
def Sparse.write {α : Type} [DecidableEq α] (d : α) (m : Sparse α) (a : Nat) : List α → Sparse α
  | [] => m
  | x :: t => Sparse.write d (m.set d a x) (a + 1) t

/-- Consecutive values written where the enable is set. -/
def Sparse.writeMasked {α : Type} [DecidableEq α] (d : α) (m : Sparse α) (a : Nat) : List (Option α) → Sparse α
  | [] => m
  | none :: t => Sparse.writeMasked d m (a + 1) t
  | some x :: t => Sparse.writeMasked d (m.set d a x) (a + 1) t

/-- The little-endian number that bytes spell (R8). -/
def ofBytes : List Byte → Nat
  | [] => 0
  | b :: t => b.toNat + 256 * ofBytes t

/-- The `n` little-endian bytes of a number (R8). -/
def toBytes : Nat → Nat → List Byte
  | 0, _ => []
  | n + 1, v => BitVec.ofNat 8 v :: toBytes n (v / 256)

/-- A bit field [lo + w − 1 : lo] of a number (R7). -/
def bits (v lo w : Nat) : Nat := v / 2 ^ lo % 2 ^ w

/-- One bit of a number. -/
def bit (v i : Nat) : Bool := v.testBit i

/-- A number whose bit `i` is set or cleared. -/
def setBit (v i : Nat) (b : Bool) : Nat :=
  if v.testBit i = b then v else if b then v + 2 ^ i else v - 2 ^ i

/-- The numbers a, a + 1, … (n of them). -/
def countFrom (a : Nat) : Nat → List Nat
  | 0 => []
  | n + 1 => a :: countFrom (a + 1) n

/-- A list in pieces of n (the last may be shorter); n > 0. -/
def chunks {α : Type} (n : Nat) (l : List α) : List (List α) :=
  (countFrom 0 ((l.length + n - 1) / n)).map fun i => (l.drop (i * n)).take n

/-- A list with its element i replaced. -/
def setAt {α : Type} : List α → Nat → α → List α
  | [], _, _ => []
  | _ :: t, 0, x => x :: t
  | a :: t, i + 1, x => a :: setAt t i x

/-- A list brought to n elements: cut, or filled up with `d`. -/
def padTo {α : Type} (d : α) (n : Nat) (l : List α) : List α := l.take n ++ List.replicate (n - l.length) d

end Sys2Proof.Machine
end

