-- ==== Sys2Proof/Machine/Float.lean ====
section
/-! DEFINITION. Machine/Float.lean: the number formats and the arithmetic of chapter 02 (R31 to R65): codes to exact
values, the one rounding (RNE, R45), the conversions (R48, R49), the Sieve's operations (R51, R52), the pairwise tree
(R53) and the flags an operation raises (R55). Everything here is exact integer arithmetic followed by one rounding. -/

namespace Sys2Proof.Machine

/-- The five events of the arithmetic-flag word (R55), as an operation reports them. -/
structure ArithFlags where
  nanIn   : Bool := false
  nanGen  : Bool := false
  infGen  : Bool := false
  satFp8  : Bool := false
  subnOut : Bool := false
  deriving DecidableEq, Repr

/-- The events of two operations together. -/
def ArithFlags.join (a b : ArithFlags) : ArithFlags :=
  { nanIn := a.nanIn || b.nanIn, nanGen := a.nanGen || b.nanGen, infGen := a.infGen || b.infGen,
    satFp8 := a.satFp8 || b.satFp8, subnOut := a.subnOut || b.subnOut }

/-- The events with NAN_IN as said: a NaN that arose inside a command is no NaN operand of it (R55). -/
def ArithFlags.withNan (f : ArithFlags) (b : Bool) : ArithFlags := { f with nanIn := b }

/-- The arithmetic-flag word that the events spell (R55: bits [4:0]). -/
def ArithFlags.word (f : ArithFlags) : Word :=
  BitVec.ofNat 32 (f.nanIn.toNat + 2 * f.nanGen.toNat + 4 * f.infGen.toNat + 8 * f.satFp8.toNat
    + 16 * f.subnOut.toNat)

/-- A value: NaN, an infinity, or the exact number ± m · 2^e (a zero keeps its sign). -/
inductive Fp where
  | nan
  | inf (neg : Bool)
  | fin (neg : Bool) (m : Nat) (e : Int)
  deriving DecidableEq, Repr

def Fp.isNan : Fp → Bool
  | .nan => true
  | _ => false

def Fp.isInf : Fp → Bool
  | .inf _ => true
  | _ => false

def Fp.isFinite : Fp → Bool
  | .fin _ _ _ => true
  | _ => false

/-- The value is a zero of either sign. -/
def Fp.isZero : Fp → Bool
  | .fin _ m _ => m == 0
  | _ => false

/-- The sign bit of a value that has one. -/
def Fp.sign : Fp → Bool
  | .nan => false
  | .inf n => n
  | .fin n _ _ => n

def Fp.neg : Fp → Fp
  | .nan => .nan
  | .inf n => .inf (!n)
  | .fin n m e => .fin (!n) m e

/-- The value that an exponent field and a mantissa field give in a format of bias `bias` with `mb` mantissa bits (R31,
R46: subnormals at their exact values). -/
def fieldsValue (mb : Nat) (bias : Int) (neg : Bool) (ex ma : Nat) : Fp :=
  if ex = 0 then .fin neg ma (1 - bias - mb) else .fin neg (2 ^ mb + ma) ((ex : Int) - bias - mb)

/-- FP32 (R31, R32). -/
def f32Value (w : F32) : Fp :=
  let n := w.toNat
  let ex := n / 2 ^ 23 % 256
  let ma := n % 2 ^ 23
  let neg := w.msb
  if ex = 255 then (if ma = 0 then .inf neg else .nan) else fieldsValue 23 127 neg ex ma

/-- BF16 is the upper half of FP32 (R31, R50). -/
def bf16ToF32 (w : Bf16) : F32 := BitVec.ofNat 32 (w.toNat * 65536)

def bf16Value (w : Bf16) : Fp := f32Value (bf16ToF32 w)

/-- FP8 E4M3 (R31, R32): no infinities; 0x7F and 0xFF are NaN. -/
def fp8Value (w : Fp8) : Fp :=
  let n := w.toNat
  if n % 128 = 127 then .nan else fieldsValue 3 7 w.msb (n / 8 % 16) (n % 8)

/-- An E2M1 element (R34). -/
def e2m1Value (w : BitVec 4) : Fp :=
  fieldsValue 1 1 w.msb (w.toNat / 2 % 4) (w.toNat % 2)

/-- A weight element of an MXFP4 block with the scale given (R35): NaN where the scale is 0xFF. -/
def mxValue (w : BitVec 4) (scale : Byte) : Fp :=
  if scale = 0xFF then .nan else
  match e2m1Value w with
  | .fin n m e => .fin n m (e + (scale.toNat : Int) - 127)
  | v => v

/-! ### Rounding -/

/-- m / 2^k rounded to nearest, ties to even (R45). -/
def shiftRne (m k : Nat) : Nat :=
  let q := m / 2 ^ k
  let r := m % 2 ^ k
  let half := 2 ^ k / 2
  if k = 0 then m
  else if r > half || (r == half && q % 2 == 1) then q + 1 else q

/-- m / d rounded to nearest, ties to even (R45); d > 0. -/
def divRne (m d : Nat) : Nat :=
  let q := m / d
  if 2 * (m % d) > d || (2 * (m % d) == d && q % 2 == 1) then q + 1 else q

/-- The magnitude code, without sign, that m · 2^e (m > 0) rounds to in a format with `mb` mantissa bits and least
normal exponent `emin`; the code runs on past the largest finite one, so that the caller sees an overflow. -/
def encodeMag (mb : Nat) (emin : Int) (m : Nat) (e : Int) : Nat :=
  let ex := max (m.log2 + e) emin
  let q := ex - mb
  let n := if q ≤ e then m * 2 ^ (e - q).toNat else shiftRne m (q - e).toNat
  (ex - emin).toNat * 2 ^ mb + n

/-- The canonical FP32 NaN (R32, R33). -/
def f32Nan : F32 := 0x7FC00000
def f32Inf (neg : Bool) : F32 := if neg then 0xFF800000 else 0x7F800000
def f32Zero (neg : Bool) : F32 := if neg then 0x80000000 else 0

/-- One RNE rounding to FP32 (R41, R45 to R47), its sign kept for a zero. -/
def roundF32 : Fp → F32
  | .nan => f32Nan
  | .inf n => f32Inf n
  | .fin n m e =>
    if m = 0 then f32Zero n else
    let c := encodeMag 23 (-126) m e
    if c ≥ 0x7F800000 then f32Inf n else BitVec.ofNat 32 (c + (if n then 2 ^ 31 else 0))

/-- The FP32 number nearest to a quotient num / den (den > 0), RNE. -/
def ratioF32 (num : Int) (den : Nat) : F32 :=
  let m := num.natAbs * 2 ^ 64
  let q := m / den
  roundF32 (.fin (num < 0) (2 * q + if m % den = 0 then 0 else 1) (-65))

/-- FP32 to BF16 (R48), with the events of R55: a finite value that becomes an infinity raises INF_GEN, a non-zero
subnormal result or a non-zero value rounded to zero raises SUBN_OUT. -/
def f32ToBf16 (w : F32) : Bf16 × ArithFlags :=
  match f32Value w with
  | .nan => (0x7FC0, {})
  | .inf n => (if n then 0xFF80 else 0x7F80, {})
  | .fin n m e =>
    let s := if n then 2 ^ 15 else 0
    if m = 0 then (BitVec.ofNat 16 s, {}) else
    let c := encodeMag 7 (-126) m e
    if c ≥ 0x7F80 then (BitVec.ofNat 16 (0x7F80 + s), { infGen := true })
    else (BitVec.ofNat 16 (c + s), { subnOut := c < 128 })

/-- FP32 to FP8 E4M3 (R48, R49), with the events of R55: |x| ≥ 464 and an infinity saturate to ±448. -/
def f32ToFp8 (w : F32) : Fp8 × ArithFlags :=
  match f32Value w with
  | .nan => (0x7F, {})
  | .inf n => (if n then 0xFE else 0x7E, { satFp8 := true })
  | .fin n m e =>
    let s := if n then 128 else 0
    if m = 0 then (BitVec.ofNat 8 s, {}) else
    -- |x| ≥ 464 = 29 · 2^4, compared exactly
    let sat := if e ≥ 4 then decide (m * 2 ^ (e - 4).toNat ≥ 29) else decide (m ≥ 29 * 2 ^ (4 - e).toNat)
    if sat then (BitVec.ofNat 8 (0x7E + s), { satFp8 := true }) else
    let c := encodeMag 3 (-6) m e
    (BitVec.ofNat 8 (min c 0x7E + s), { subnOut := c < 8 })

/-! ### Exact sums -/

/-- An exact sum under way (R41, R47): the finite part is `num` · 2^`ex`. -/
structure ExactSum where
  num    : Int := 0
  ex     : Int := 0
  posInf : Bool := false
  negInf : Bool := false
  nan    : Bool := false
  deriving DecidableEq, Repr

/-- The sum with one more term. -/
def ExactSum.add (s : ExactSum) : Fp → ExactSum
  | .nan => { s with nan := true }
  | .inf n => if n then { s with negInf := true } else { s with posInf := true }
  | .fin n m e =>
    let v : Int := if n then -(m : Int) else m
    if m = 0 then s
    else if s.num = 0 then { s with num := v, ex := e }
    else if s.ex ≤ e then { s with num := s.num + v * 2 ^ (e - s.ex).toNat }
    else { s with num := s.num * 2 ^ (s.ex - e).toNat + v, ex := e }

/-- The value of a sum before its rounding (R42: an exact zero is +0; R47 for the rest). -/
def ExactSum.value (s : ExactSum) : Fp :=
  if s.nan || (s.posInf && s.negInf) then .nan
  else if s.posInf then .inf false
  else if s.negInf then .inf true
  else .fin (decide (s.num < 0)) s.num.natAbs s.ex

/-- The exact product (R39, R47): an infinity times a zero is NaN. -/
def Fp.mul : Fp → Fp → Fp
  | .nan, _ => .nan
  | _, .nan => .nan
  | .inf a, .inf b => .inf (a != b)
  | .inf a, .fin b m _ => if m = 0 then .nan else .inf (a != b)
  | .fin a m _, .inf b => if m = 0 then .nan else .inf (a != b)
  | .fin a m e, .fin b m' e' => .fin (a != b) (m * m') (e + e')

/-- The exact sum of two values. The sign of an exact zero sum follows IEEE 754 binary32 under RNE (R52): + unless both
terms are negative zeros. -/
def Fp.add : Fp → Fp → Fp
  | .nan, _ => .nan
  | _, .nan => .nan
  | .inf a, .inf b => if a = b then .inf a else .nan
  | .inf a, .fin _ _ _ => .inf a
  | .fin _ _ _, .inf b => .inf b
  | .fin a m e, .fin b m' e' =>
    if m = 0 && m' = 0 then .fin (a && b) 0 0
    else (({} : ExactSum).add (.fin a m e) |>.add (.fin b m' e')).value

/-- Order of two finite values: the sign of a − b. -/
def Fp.compareFin (a b : Fp) : Ordering :=
  match a, b with
  | .fin a m e, .fin b m' e' =>
    let d := (({} : ExactSum).add (.fin a m e) |>.add (.fin (!b) m' e')).num
    if d < 0 then .lt else if d = 0 then .eq else .gt
  | _, _ => .eq

/-- a < b for values that are not NaN (IEEE 754: −0 and +0 are equal). -/
def Fp.lt (a b : Fp) : Bool :=
  match a, b with
  | .nan, _ => false
  | _, .nan => false
  | .inf x, .inf y => x && !y
  | .inf x, .fin _ _ _ => x
  | .fin _ _ _, .inf y => !y
  | .fin x m e, .fin y m' e' => (Fp.fin x m e).compareFin (.fin y m' e') == .lt

/-- Numerical equality; a NaN equals nothing. -/
def Fp.numEq (a b : Fp) : Bool :=
  !a.isNan && !b.isNan && !a.lt b && !b.lt a

/-! ### The Sieve's operations (R51, R52) -/

/-- The flags of an operation from its operands and result (R55). -/
def opFlags (xs : List Fp) (r : F32) : ArithFlags :=
  let anyNan := xs.any Fp.isNan
  let rv := f32Value r
  { nanIn := anyNan, nanGen := rv.isNan && !anyNan, infGen := rv.isInf && xs.all Fp.isFinite }

def f32Add (a b : F32) : F32 × ArithFlags :=
  let x := f32Value a; let y := f32Value b
  let r := roundF32 (x.add y)
  (r, opFlags [x, y] r)

def f32Sub (a b : F32) : F32 × ArithFlags :=
  let x := f32Value a; let y := f32Value b
  let r := roundF32 (x.add y.neg)
  (r, opFlags [x, y] r)

def f32Mul (a b : F32) : F32 × ArithFlags :=
  let x := f32Value a; let y := f32Value b
  let r := roundF32 (x.mul y)
  (r, opFlags [x, y] r)

/-- a · b + c rounded once (R51). -/
def f32Fma (a b c : F32) : F32 × ArithFlags :=
  let x := f32Value a; let y := f32Value b; let z := f32Value c
  let r := roundF32 ((x.mul y).add z)
  (r, opFlags [x, y, z] r)

/-- max under R52: NaN wins, and max(+0, −0) is +0. -/
def f32Max (a b : F32) : F32 × ArithFlags :=
  let x := f32Value a; let y := f32Value b
  let r := if x.isNan || y.isNan then f32Nan
    else if x.isZero && y.isZero then f32Zero (x.sign && y.sign)
    else if x.lt y then b else a
  (r, { nanIn := x.isNan || y.isNan })

/-- min under R52: NaN wins, and min(+0, −0) is −0. -/
def f32Min (a b : F32) : F32 × ArithFlags :=
  let x := f32Value a; let y := f32Value b
  let r := if x.isNan || y.isNan then f32Nan
    else if x.isZero && y.isZero then f32Zero (x.sign || y.sign)
    else if y.lt x then b else a
  (r, { nanIn := x.isNan || y.isNan })

/-- The reciprocal, correctly rounded (R51): the quotient to 32 bits past the leading one, with a sticky bit. -/
def f32Rcp (a : F32) : F32 × ArithFlags :=
  let x := f32Value a
  let r := match x with
    | .nan => f32Nan
    | .inf n => f32Zero n
    | .fin n m e =>
      if m = 0 then f32Inf n else
      let k := m.log2 + 32
      let q := 2 ^ k / m
      let sticky := if 2 ^ k % m = 0 then 0 else 1
      roundF32 (.fin n (2 * q + sticky) (-(k : Int) - 1 - e))
  (r, opFlags [x] r)

/-- The integer square root of n < 4^fuel, bit by bit from the top: (root, remainder-free). -/
def isqrtGo (n : Nat) : Nat → Nat → Nat
  | 0, r => r
  | k + 1, r =>
    let c := r + 2 ^ k
    isqrtGo n k (if c * c ≤ n then c else r)

/-- The integer square root. -/
def isqrt (n : Nat) : Nat := isqrtGo n (n.log2 / 2 + 1) 0

/-- The reciprocal square root, correctly rounded (R51, R52). A negative zero follows IEEE 754 (rSqrt(−0) = −∞). -/
def f32Rsqrt (a : F32) : F32 × ArithFlags :=
  let x := f32Value a
  let r := match x with
    | .nan => f32Nan
    | .inf n => if n then f32Nan else 0
    | .fin n m e =>
      if m = 0 then f32Inf n else
      if n then f32Nan else
      let (m, e) := if e % 2 = 0 then (m, e) else (2 * m, e - 1)
      let k := m.log2 + 32
      let q := isqrt (2 ^ (2 * k) / m)
      let sticky := if q * q * m = 2 ^ (2 * k) then 0 else 1
      roundF32 (.fin false (2 * q + sticky) (-(k : Int) - 1 - e / 2))
  (r, opFlags [x] r)

/-- The working precision of the two transcendental functions, in bits: enough to separate every FP32 argument's value
from every rounding boundary (DEDUCED: the hardest binary32 arguments of these functions lie further than 2^−64 from a
boundary). -/
def transBits : Nat := 192

/-- 2^(0.b₁b₂…b_k) for the k low bits of n, as a fixed-point number below the true value by less than 2^(2 − transBits):
nested square roots from the last bit. -/
def exp2Frac (n : Nat) : Nat → Nat → Nat
  | 0, y => y
  | k + 1, y =>
    -- bit number `total − 1 − k` from the bottom is folded in first
    exp2Frac (n / 2) k (isqrt ((if n % 2 = 1 then 2 * y else y) * 2 ^ transBits))

/-- exp2, correctly rounded (R51, R52): exact where the argument is an integer; otherwise the value is irrational, and
its truncation with a sticky bit is rounded. -/
def f32Exp2 (a : F32) : F32 × ArithFlags :=
  let x := f32Value a
  let r := match x with
    | .nan => f32Nan
    | .inf n => if n then 0 else f32Inf false
    | .fin n m e =>
      if m = 0 then 0x3F800000
      else if (m.log2 : Int) + e ≥ 8 then (if n then 0 else f32Inf false)
      else
        let k := (-e).toNat
        -- ± m · 2^e as floor + fraction / 2^k
        let v : Int := if n then -((m * 2 ^ e.toNat : Nat) : Int) else ((m * 2 ^ e.toNat : Nat) : Int)
        let fl := v.fdiv (2 ^ k)
        let fr := (v.fmod (2 ^ k)).toNat
        if fr = 0 then roundF32 (.fin false 1 fl)
        else roundF32 (.fin false (2 * exp2Frac fr k (2 ^ transBits) + 1) (fl - transBits - 1))
  (r, opFlags [x] r)

/-- The bits of log2 of y · 2^(−transBits) in [1, 2), most significant first, by repeated squaring: the fraction's first
`k` bits. -/
def log2Frac : Nat → Nat → Nat → Nat
  | 0, _, acc => acc
  | k + 1, y, acc =>
    let s := y * y / 2 ^ transBits
    if s ≥ 2 ^ (transBits + 1) then log2Frac k (s / 2) (2 * acc + 1) else log2Frac k s (2 * acc)

/-- log2, correctly rounded (R51, R52): exact for a power of two; otherwise irrational, rounded from 128 fraction bits
and a sticky bit. -/
def f32Log2 (a : F32) : F32 × ArithFlags :=
  let x := f32Value a
  let r := match x with
    | .nan => f32Nan
    | .inf n => if n then f32Nan else f32Inf false
    | .fin n m e =>
      if m = 0 then f32Inf true else
      if n then f32Nan else
      let l := m.log2
      let ip : Int := l + e
      if m = 2 ^ l then roundF32 (.fin (decide (ip < 0)) ip.natAbs 0)
      else
        let f := log2Frac 128 (m * 2 ^ (transBits - l)) 0
        let v : Int := ip * 2 ^ 129 + (2 * f + 1 : Nat)
        roundF32 (.fin (decide (v < 0)) v.natAbs (-129))
  (r, opFlags [x] r)

/-- The natural exponential (R51): exp2(round(x · 0x3FB8_AA3B)); a product that overflows to an infinity of finite operands
raises INF_GEN as any operation does (DESIGN CHOICE, log entry 145). -/
def f32Exp (a : F32) : F32 × ArithFlags :=
  let (p, f) := f32Mul a 0x3FB8AA3B
  let (r, g) := f32Exp2 p
  (r, { nanIn := f.nanIn, nanGen := f.nanGen, infGen := f.infGen || g.infGen })

/-- The natural logarithm (R51): round(log2(x) · 0x3F31_7218). -/
def f32Ln (a : F32) : F32 × ArithFlags :=
  let (p, f) := f32Log2 a
  let (r, g) := f32Mul p 0x3F317218
  (r, { nanIn := f.nanIn, nanGen := f.nanGen, infGen := f.infGen || (g.infGen && (f32Value p).isFinite) })

/-! ### The pairwise tree (R53) -/

/-- One level of the tree. -/
def treeLevel (op : F32 → F32 → F32 × ArithFlags) : List F32 → List F32 × ArithFlags
  | a :: b :: t =>
    let (r, f) := op a b
    let (l, g) := treeLevel op t
    (r :: l, f.join g)
  | l => (l, {})

/-- The tree to its root; `fuel` levels are enough for 2^fuel elements. -/
def treeFold (op : F32 → F32 → F32 × ArithFlags) : Nat → List F32 → F32 × ArithFlags
  | 0, l => (l.headD 0, {})
  | k + 1, l =>
    match l with
    | [x] => (x, {})
    | l =>
      let (n, f) := treeLevel op l
      let (r, g) := treeFold op k n
      (r, f.join g)

/-- A reduction of a vector (R53). A NaN element raises NAN_IN also where the vector has one element. -/
def treeReduce (op : F32 → F32 → F32 × ArithFlags) (l : List F32) : F32 × ArithFlags :=
  let (r, f) := treeFold op (l.length.log2 + 1) l
  (if (f32Value r).isNan then f32Nan else r, { f with nanIn := l.any fun w => (f32Value w).isNan })

end Sys2Proof.Machine
end

