-- ==== Sys2Proof/Machine/Tiles.lean ====
section
/-! DEFINITION. Machine/Tiles.lean: Kneader tiles and the arithmetic of one pass (02 R38 to R43, R47, R55; 07 R202, R203,
R207, R216, R218). The bytes of a cell buffer come in as a reading function. -/

namespace Sys2Proof.Machine

/-- The three weight formats (R38, R241). -/
inductive WFmt where
  | bf16
  | fp8
  | mxfp4
  deriving DecidableEq, Repr

/-- The K span of a tile (R40, R202). -/
def WFmt.span : WFmt → Nat
  | .bf16 => 128
  | .fp8 => 128
  | .mxfp4 => 256

/-- Bytes of one input element (R38). -/
def WFmt.inputBytes : WFmt → Nat
  | .bf16 => 2
  | _ => 1

/-- ACLK per lane of a pass, c of R207. -/
def WFmt.cyclesPerLane : WFmt → Nat
  | .bf16 => 2
  | _ => 1

/-- Fill time of a plain pass, F of R207. -/
def WFmt.plainFill : WFmt → Nat
  | .fp8 => 8
  | _ => 16

/-- Bytes of a tile (R202). -/
def WFmt.tileBytes : WFmt → Nat
  | .bf16 => 131072
  | .fp8 => 65536
  | .mxfp4 => 69632

/-- Blocks of 4,096 codes per tile (R241, R242). -/
def WFmt.blocks : WFmt → Nat
  | .mxfp4 => 33
  | _ => 16

/-- Width of the codes of block i of a tile (R241, R242). -/
def WFmt.blockWidth : WFmt → Nat → Nat
  | .bf16, _ => 16
  | .fp8, _ => 8
  | .mxfp4, i => if i = 32 then 8 else 4

/-- The format code of a stream descriptor (R245). -/
def WFmt.code : WFmt → Nat
  | .bf16 => 0
  | .fp8 => 1
  | .mxfp4 => 2

/-- The byte offset within a tile of block i (R203, R242): 4,096 codes of the kind's width, the scale region last. -/
def WFmt.blockOffset : WFmt → Nat → Nat
  | .bf16, i => 8192 * i
  | .fp8, i => 4096 * i
  | .mxfp4, i => if i = 32 then 65536 else 2048 * i

/-- RAW size of block i (R247): 4,096 · w / 8 bytes. -/
def WFmt.rawBytes (f : WFmt) (i : Nat) : Nat := 512 * f.blockWidth i

/-- Code j of a packed run of w-bit codes whose first byte is at `base` (R203, R247). -/
def codeAt (rd : Nat → Byte) (base w j : Nat) : Nat :=
  if w = 16 then (rd (base + 2 * j)).toNat + 256 * (rd (base + 2 * j + 1)).toNat
  else if w = 8 then (rd (base + j)).toNat
  else (rd (base + j / 2)).toNat / (if j % 2 = 0 then 1 else 16) % 16

/-- The number (code) of element (k, n) in its tile (R242). -/
def WFmt.elementIndex (f : WFmt) (k n : Nat) : Nat := f.span * n + k

/-- The weight (k, n) of a tile given by its codes: code `j` of block `i` (R34, R35, R203, R242). -/
def WFmt.weight (f : WFmt) (code : Nat → Nat → Nat) (k n : Nat) : Fp :=
  let j := f.elementIndex k n
  let c := code (j / 4096) (j % 4096)
  match f with
  | .bf16 => bf16Value (BitVec.ofNat 16 c)
  | .fp8 => fp8Value (BitVec.ofNat 8 c)
  | .mxfp4 => mxValue (BitVec.ofNat 4 c) (BitVec.ofNat 8 (code 32 (8 * n + k / 32)))

/-- The codes of a plain tile in the buffer. -/
def plainCode (rd : Nat → Byte) (f : WFmt) (tile i j : Nat) : Nat :=
  codeAt rd (tile + f.blockOffset i) (f.blockWidth i) j

/-- The input element k of a vector that starts at `base` (R38, R206). -/
def WFmt.input (f : WFmt) (rd : Nat → Byte) (base k : Nat) : Fp :=
  match f with
  | .bf16 => bf16Value (BitVec.ofNat 16 (codeAt rd base 16 k))
  | _ => fp8Value (rd (base + k))

/-- A NaN arises from operands that are none (R47, R55): in a product, or in the sum of the terms that are none (log entry
135). -/
def nanArises (terms : List (Fp × Fp)) (acc : Fp) : Bool :=
  let products := terms.map fun p => p.1.mul p.2
  let kept := (acc :: products).filter fun v => !v.isNan
  (terms.any fun p => !p.1.isNan && !p.2.isNan && (p.1.mul p.2).isNan) ||
    (kept.foldl (fun (s : ExactSum) v => s.add v) {}).value.isNan

/-- One lane and column of a pass (R41, R42, R47): the exact sum of the span's products and of the accumulator's value,
rounded once. The flags are those of R55; `loaded` says that a0 came from the cell buffer. -/
def passElement (xs ws : List Fp) (a0 : F32) (loaded : Bool) : F32 × ArithFlags :=
  let terms := xs.zip ws
  let acc := f32Value a0
  let sum := terms.foldl (fun (s : ExactSum) p => s.add (p.1.mul p.2)) {}
  let r := roundF32 (sum.add acc).value
  let nanOperand := terms.any fun p => p.1.isNan || p.2.isNan
  let allFinite := acc.isFinite && terms.all fun p => p.1.isFinite && p.2.isFinite
  (r, { nanIn := nanOperand || (loaded && acc.isNan),
        nanGen := nanArises terms acc,
        infGen := (f32Value r).isInf && allFinite })

/-- Bytes of an output element of a drain (R218). -/
inductive OutFmt where
  | f32
  | bf16
  | fp8
  deriving DecidableEq, Repr

def OutFmt.bytes : OutFmt → Nat
  | .f32 => 4
  | .bf16 => 2
  | .fp8 => 1

/-- An FP32 value in an output format, as bytes, with the conversion's flags (R48, R55). -/
def OutFmt.convert (f : OutFmt) (v : F32) : List Byte × ArithFlags :=
  match f with
  | .f32 => (toBytes 4 (if (f32Value v).isNan then f32Nan.toNat else v.toNat), {})
  | .bf16 => let (c, g) := f32ToBf16 v; (toBytes 2 c.toNat, g)
  | .fp8 => let (c, g) := f32ToFp8 v; (toBytes 1 c.toNat, g)

end Sys2Proof.Machine
end

