-- ==== Sys2Proof/Machine/State.lean ====
section
/-! DEFINITION. Machine/State.lean: everything the spec gives the part, as plain data, in groups; and the state after
reset. INVENTORY.md lists each piece with the rule that names it and its reset value. -/

namespace Sys2Proof.Machine

/-- Why the model stops: it never does, since the spec gives every command an effect in every state. What the part calls
a fault (chapter 19) is an effect on the state. -/
inductive Fault
  deriving DecidableEq, Repr

/-- Why the model gives a command no meaning. -/
inductive Refusal where
  /-- Raised by the arm of a command that has no meaning yet. Safe: nothing is claimed of what follows. -/
  | notModelled (mnemonic : String)
  deriving DecidableEq, Repr

/-! ### Power and life cycle -/

/-- The device states of R97. -/
inductive DevState where
  | off | standby | starting | ready | inService | halted | peat
  deriving DecidableEq, Repr

/-- One mark per rail. -/
structure RailMarks where
  vcore : Bool
  vmem : Bool
  vlnk : Bool
  vio18 : Bool
  vaux33 : Bool
  vprg : Bool
  deriving DecidableEq, Repr

/-- Rails, clocks and what monitors them (R66 to R80, R90). -/
structure Power where
  inWindow : RailMarks
  /-- the rail row of a recorded power-sequencing event that still blocks RESET_N (R80) -/
  sequenceBlock : Option Nat
  refclk : Bool
  rootLock : Bool
  laneLock : BitVec 8
  holdover : Bool
  /-- every clock stopped (R90) -/
  clocksStopped : Bool
  /-- the clocks of cells, cores and ports run (R82, R101) -/
  mainClocks : Bool
  /-- UCLK edges counted (the model's own count of idle steps) -/
  uclk : Nat
  deriving DecidableEq, Repr

/-- Why the device drains (R112, R113). -/
inductive DrainCause where
  | leaveService | portLost
  deriving DecidableEq, Repr

/-- A halt cause detected and not yet carried through (R677, R679): its code, its rank among causes of one code, and
bytes 4 to 13 of the HALT event's data. -/
structure HaltCause where
  code : Nat
  rank : Nat
  source : List Byte
  deriving DecidableEq, Repr

/-- The life of the device (R97 to R128). -/
structure Life where
  state : DevState
  /-- stage in progress, 0 outside STARTING (R101) -/
  stage : Nat
  /-- the attempt found open in NOR (R106), with the stage it had reached -/
  openAttempt : Option Nat
  /-- µs of the attempt so far -/
  micros : Nat
  /-- stages 1 to 4 were run for the endpoint in this PEAT (R115) -/
  peatTried : Bool
  resetHigh : Bool
  perstHigh : Bool
  bootSafe : Bool
  serveOkLow : Bool
  haltAsserted : Bool
  drain : Option DrainCause
  causes : List HaltCause
  /-- the main domain and the endpoint are held in reset after a class T halt (R681) -/
  heldInReset : Bool
  deriving DecidableEq, Repr

/-- What the hardware keeps of one temperature sensor (R85, R93, R641). Samples are in 1/400 °C. -/
structure SensorState where
  sample : Option Int
  /-- highest sample since 0x2100:04 was last written zero -/
  peak : Option Int
  /-- an unconfirmed sample at or above the halt threshold, and whether it raised the warning event -/
  unconfirmed : Option (Int × Bool)
  /-- a halt condition was confirmed and still holds -/
  limit : Bool
  /-- the warning threshold was passed and has not cleared -/
  warned : Bool
  missed : Nat
  failed : Bool
  deriving DecidableEq, Repr

/-- A sensor that has converted nothing. -/
def SensorState.blank : SensorState := ⟨none, none, none, false, false, 0, false⟩

/-- Sensors and hot refresh (R85 to R88, R93). -/
structure Sensors where
  each : Sparse SensorState
  /-- DRAM layer samples of the round in progress, newest first -/
  round : List (Nat × Int)
  /-- DRAM layer samples of the latest complete round -/
  latest : List (Nat × Int)
  hot : Bool
  /-- the memory controllers refresh (R87) -/
  refreshing : Bool
  /-- rail monitors, VPRG_SENSE and lock monitors that failed (R642), by sensor number -/
  monitorsFailed : List Nat
  deriving DecidableEq, Repr

/-! ### Management -/

/-- An event record before it is numbered (R643). -/
structure LogRec where
  time : DWord
  code : Half
  severity : Nat
  state : Nat
  data : List Byte
  deriving DecidableEq, Repr

/-- The event log (R644 to R649, R668). -/
structure Log where
  front : List LogRec
  /-- records dropped since the last LOG_LOST record -/
  dropped : Nat
  /-- the ring in NOR: sector · 128 + slot to the 32 bytes of a record; unlisted slots are erased -/
  ring : Sparse (List Byte)
  /-- writing to NOR has stopped (R668) -/
  stopped : Bool
  deriving DecidableEq, Repr

/-- Ledger values (R562 to R566, R577, R650). Keys are index · 2^24 + sub · 2^16 + element; what is not listed holds its
default. -/
structure Ledger where
  live : Sparse Nat
  store : Sparse Nat
  /-- the half of the store in use, bytes appended to it, and the sequence number of its latest record -/
  half : Bool
  fill : Nat
  sequence : Nat
  deriving DecidableEq, Repr

/-- Where Uhleg is (R594, R638, R659). -/
inductive UhlegPhase where
  | stopped
  | restarting (cause : Nat)
  | firmware
  | recovery
  deriving DecidableEq, Repr

/-- What an image bank holds (R648): erased, the factory's image, or bytes programmed. -/
inductive BankContent where
  | erased
  | factory
  | bytes (b : List Byte)
  deriving DecidableEq, Repr

/-- The Uhleg core (R637, R638, R659 to R663). -/
structure Uhleg where
  phase : UhlegPhase
  bankB : Bool
  trial : Bool
  /-- boots since VAUX33 entered its window -/
  boots : Nat
  /-- straps as sampled at the last boot (R727) -/
  devId : BitVec 3
  trayId : Byte
  deriving DecidableEq, Repr

/-- Firmware banks and the update flow (R648 to R665). -/
structure Update where
  uhlegA : BankContent
  uhlegB : BankContent
  runtimeA : BankContent
  runtimeB : BankContent
  /-- banks marked as holding a verified image -/
  verified : List ImageBank
  /-- bank being received into, or staged -/
  targetBank : Option ImageBank
  /-- an activated image of Uhleg or of the runtime that has not passed its trial -/
  pendingUhleg : Bool
  pendingRuntime : Bool
  /-- the runtime bank (B) last booted by stage 8 since the Uhleg boot (R655) -/
  runtimeRan : Option Bool
  /-- the runtime bank (B) that stage 8 of the attempt in progress selected, and whether it boots on trial (R660, R661) -/
  runtimeChosen : Bool
  runtimeOnTrial : Bool
  deriving DecidableEq, Repr

/-- A mailbox block (R588): the BAR0 mailbox and the cores' Ledger port. -/
structure Mailbox where
  state : BitVec 2
  mbxErr : Bool
  abort : Byte
  command : Byte
  sub : Byte
  index : Half
  first : Half
  count : Half
  reqLength : Half
  ansLength : Half
  tag : Half
  ansTag : Half
  detail : Word
  /-- REQUEST_DATA and ANSWER_DATA by byte -/
  request : Sparse Byte
  answer : Sparse Byte
  deriving DecidableEq, Repr

/-- The mailbox at reset (R588). -/
def Mailbox.blank : Mailbox := ⟨0, false, 0, 0, 0, 0, 0, 0, 0, 0, 0, 0, 0, [], []⟩

/-- An open CAN FD download (R582 to R586): the REQUEST frame, the data so far, and the next segment expected. -/
structure Download where
  requester : Nat
  ident : BitVec 29
  request : List Byte
  data : List Byte
  next : Nat
  deriving DecidableEq, Repr

/-- CAN FD (R579 to R587). -/
structure Can where
  downloads : List Download
  busOff : Bool
  notifyCount : Byte
  deriving DecidableEq, Repr

/-- Service unlock (R591 to R593). -/
structure Unlock where
  state : BitVec 8
  holder : BitVec 8
  /-- minutes granted, and the UCLK count at the grant -/
  minutes : Nat
  since : Nat
  challenge : List Byte
  refusals : Nat
  deriving DecidableEq, Repr

/-- What is fused or written at manufacture (R637, R628, R648). -/
structure Fuses where
  serial : DWord
  imageKeyHash : List Byte
  serviceKeyHash : List Byte
  vcoreSetPoint : Half
  rollback : Word
  sipKey : List Byte
  date : Word
  record : Nat
  endurance : Word
  deriving DecidableEq, Repr

/-- Messages that left the device, newest first. -/
inductive Out where
  /-- a CAN FD frame (R580) -/
  | can (ident : BitVec 29) (data : List Byte)
  /-- an MSI-X message (R552) -/
  | msix (vector addr data : Nat)
  /-- a write to host memory (R549) -/
  | hostWrite (addr : Nat) (bytes : List Byte)
  /-- a read completion of BAR2 (R548): the bytes, or none for UR, CA or no completion -/
  | bar2Data (bytes : List Byte)
  | bar2Unsupported
  | bar2Abort
  /-- a UART line (R639): a boot with its cause and bank, or a record written -/
  | uartBoot (cause : Nat) (bankB : Bool)
  | uartRecord (bytes : List Byte)
  /-- a codeword of an Aelis frame: the PAM4 levels on the 16 fibers of a wavelength (R491, R493) -/
  | light (port : PortId) (wavelength : Fin 4) (fibers : List (List (Fin 4)))
  /-- the old value an AMO, LR, or an atomic returns to a core -/
  | coreValue (core : Fin 8) (value : DWord)
  /-- an access fault taken by a core (R180) -/
  | coreFault (core : Fin 8)
  /-- data delivered to the source of a memory read (R143) -/
  | memData (source : MemSource) (addr : Nat) (bytes : List Byte)
  deriving DecidableEq, Repr

/-! ### Memory and the shared cache -/

/-- A request waiting in a channel queue (R143 to R145), the granule as the request found it on reaching the channel (R147),
and whether that is delivered to the source. -/
structure Queued where
  req : MemReq
  promoted : Bool
  data : List Byte
  deliver : Bool
  deriving DecidableEq, Repr

/-- One channel and its controller (R135 to R152). -/
structure Channel where
  /-- in entry order, at most 16 -/
  queue : List Queued
  /-- requests that wait at their routers for room in the queue, in the order of arrival (R232) -/
  outside : List Queued
  /-- open row of each bank that has one (R132) -/
  rows : Sparse (Option Nat)
  /-- writes of the batch in progress that are still to be issued, the oldest of the queue (R144) -/
  batch : Nat
  nextBank : Nat
  /-- the refresh interval taken at the last slot is the hot one (R139) -/
  hot : Bool
  /-- attempts of the retry event in progress (R151) -/
  attempts : Nat
  deriving DecidableEq, Repr

/-- A channel at the end of a start (R137, R143). -/
def Channel.blank : Channel := ⟨[], [], [], 0, 0, false, 0⟩

/-- The memory controllers (R135 to R167). -/
structure MemoryCtl where
  channels : Sparse Channel
  /-- codewords corrected: granule · 8 + codeword, with the UCLK count of the last correction (R154) -/
  corrected : List (Nat × Nat)
  /-- granules counted as uncorrectable since the start (R155) -/
  lost : List Nat
  /-- granules the patrol scrub has read in its pass (R157) -/
  scrub : Nat
  deriving DecidableEq, Repr

/-- A line a slice holds (R170 to R175): its address, whether it differs from DRAM, what DRAM holds beneath it, the cores
that hold a copy, and whether an uncorrectable unit was found in it (R177, R193). -/
structure Line where
  addr : Nat
  dirty : Bool
  dram : List Byte
  cores : List (Fin 8)
  bad : Bool
  deriving DecidableEq, Repr

/-- The shared cache: lines held, most recently used first; and the LR reservation of each core (R180). -/
structure Cache where
  lines : List Line
  reserved : Sparse (Option Nat)
  deriving DecidableEq, Repr

/-! ### Cells -/

/-- A row of a statistics file (R220): maximum and sum. -/
structure StatRow where
  max : F32
  sum : F32
  deriving DecidableEq, Repr

/-- A statistics row as stage 7 leaves it (R228). -/
def StatRow.blank : StatRow := ⟨0xFF800000, 0⟩

/-- What the Kneader's weight registers and the expander's base latch hold (R207, R259). -/
structure Latch where
  base : Nat
  fmt : WFmt
  /-- base blocks latched -/
  blocks : List Nat
  deriving DecidableEq, Repr

/-- The tile last loaded into the weight registers (R207): offset, delta window with its variant, format. -/
structure LastTile where
  tile : Nat
  window : Option (Nat × Nat)
  fmt : WFmt
  deriving DecidableEq, Repr

/-- The K and V tiles of a page that a cell's DMA engine has staged in its buffer for attention (R16, R302): by KV head and
span. Where in the buffer they lie the spec does not say, and the model keeps them apart (log entry 67). -/
structure Stage where
  k : List (List (List Byte))
  v : List (List (List Byte))
  deriving DecidableEq, Repr

/-- The 16 cells. Keys: accumulator cell · 2^17 + lane · 512 + column; buffer cell · 2^23 + offset; statistics cell ·
4,096 + row. -/
structure Cells where
  acc : Sparse F32
  buf : Sparse Byte
  stat : Sparse StatRow
  latch : Sparse (Option Latch)
  tile : Sparse (Option LastTile)
  stage : Sparse (Option Stage)
  deriving DecidableEq, Repr

/-! ### Reed arrays -/

/-- How the pulses of a programming ended (R380): the status, the row of the array, and the column and side of a flagged
cell. -/
structure PulseEnd where
  status : Nat
  row : Nat
  column : Nat
  side : Nat
  deriving DecidableEq, Repr

/-- A programming that has begun (R378, R381): its source as it was read; the row of the group in work, the attempt, and the
phase that comes next (0 the RESET, k SET step k); iterations begun on this row and the most on any; how its pulses ended. -/
structure ProgramRun where
  source : List Byte
  row : Nat
  attempt : Nat
  phase : Nat
  count : Nat
  most : Nat
  ended : Option PulseEnd
  deriving DecidableEq, Repr

/-- An operation issued to an array and not complete (R364), with the command of the queue it belongs to: of a run, whether
it has begun, how many vectors have been added, and whether one of them was clipped; of a programming that has begun, how
far it came. -/
inductive ReedOp where
  | run (queue : QueueId) (place : Place) (o : ReedRunOps) (begun : Bool) (vector : Nat) (clipped : Bool)
  | program (queue : QueueId) (place : Place) (o : ReedProgramOps) (work : Option ProgramRun)
  | readout (queue : QueueId) (place : Place) (o : ReadoutOps)
  deriving DecidableEq, Repr

/-- What is kept of one array's health (R370, R385 to R387, R396). -/
structure ReedHealth where
  /-- vectors and group conversions of the monitor window, how many conversions saturated, and the sums of |C| per column
  (R386) -/
  windowVectors : Nat
  windowConversions : Nat
  windowSaturated : Nat
  windowSums : Sparse Nat
  /-- sums of |C| over the reference window -/
  reference : Option (List Nat)
  testDue : Bool
  recalDue : Bool
  /-- there was a test check and the latest one passed (R370) -/
  passed : Bool
  deriving DecidableEq, Repr

/-- An array of which nothing is known. -/
def ReedHealth.blank : ReedHealth := ⟨0, 0, 0, [], none, false, false, false⟩

/-- The 16 Reed arrays. The conductance of a weight cell in nS is keyed (cell · 2^18 + row · 256 +
column) · 2, with 1 added for the N cell; slots are keyed cell · 64 + slot, times 256 + column. -/
structure Reed where
  cond : Sparse Nat
  acc : Sparse Word
  /-- the queue that last added to a slot (R367) -/
  slotQueue : Sparse (Option QueueId)
  ops : Sparse (List ReedOp)
  health : Sparse ReedHealth
  /-- the UCLK count at the last recognized FRAME_SYNC edge (R372) -/
  lastFrame : Option Nat
  deriving DecidableEq, Repr

/-! ### The front end -/

/-- The states of a queue (R402). -/
inductive QState where
  | disabled | idle | running | waiting | parked | faulted | resetting
  deriving DecidableEq, Repr

/-- A page-list header (R285). -/
structure ListHead where
  len : Nat
  seq : Nat
  pool : Nat
  home : Nat
  reserved : Nat
  cap : Nat
  gone : Bool
  window : Nat
  from_ : Nat
  stats : Nat
  records : Nat
  deriving DecidableEq, Repr

/-- One query of a launch (R300): its table entry, its header as it was read, and for each query head the address and spill
base of its record. -/
structure Query where
  index : Nat
  list : Nat
  q : Nat
  lane : Nat
  set : Nat
  addr : Nat
  head : ListHead
  records : List (Nat × Nat)
  deriving DecidableEq, Repr

/-- A KV_ATTEND that has begun (R301): its operands and its queries. -/
structure Launch where
  ops : AttendOps
  queries : List Query
  deriving DecidableEq, Repr

/-- Visible rows of a remote page that KV_ATTEND has asked for (R302): the cell, the query by its index in the table, the
entry of the page list, the page, its visible slots, the parts that came and how many are awaited. -/
structure PageFetch where
  cell : CellId
  index : Nat
  entry : Nat
  page : Word
  first : Nat
  count : Nat
  parts : Sparse (List Byte)
  awaited : Nat
  deriving DecidableEq, Repr

/-- A command issued and not complete (R406): where its record stands, its opcode, its header, how many answers it waits
for, the addresses of the host reads among them, and what a KV_ATTEND has yet to do. -/
structure InFlight where
  place : Place
  opcode : Nat
  header : Header
  waitsFor : Nat
  hostReads : List Nat
  attend : Option Launch
  fetches : List PageFetch
  /-- the 64 bytes of the record; none of a command of the Oven -/
  record : List Byte
  /-- flag counters it has advanced: cell · 4 + counter (R56) -/
  counted : List Nat
  /-- memory it writes when it completes: local address and bytes (R255) -/
  onEnd : List (Nat × List Byte)
  /-- the cells in which it has completed while others have not begun it -/
  ended : List Nat
  deriving DecidableEq, Repr

/-- An entry of a sub-queue (R406): a command placed in a cell that has not begun it. -/
structure SubEntry where
  place : Place
  record : List Byte
  deriving DecidableEq, Repr

/-- A cell sequencer (R432): the queue whose sub-queue it serves, and whether that queue's slice is over. -/
structure Sequencer where
  served : QueueId
  sliceOver : Bool
  deriving DecidableEq, Repr

/-- A cell sequencer at the end of stage 7. -/
def Sequencer.blank : Sequencer := ⟨63, false⟩

/-- A parameter block that the Oven has read ahead of its BAKE (R423): the BAKE's ring position, the block's global address
and its bytes. -/
structure ParamBlock where
  position : Nat
  addr : Nat
  bytes : List Byte
  deriving DecidableEq, Repr

/-- A WAIT in progress (R415, R418). -/
structure PendingWait where
  place : Place
  header : Header
  counter : Nat
  target : Nat
  cancel : Bool
  deriving DecidableEq, Repr

/-- The states of a node of a bake. -/
inductive NodeState where
  | unissued | issued | done
  deriving DecidableEq, Repr

/-- A running bake (R423): its number, recipe, ring position, header of the BAKE, patched nodes, edges, and node
states; whether a proofer's wake baked it; and whether its nodes are yet to be issued. -/
structure Bake where
  number : Nat
  recipe : Nat
  tag : Nat
  position : Nat
  header : Header
  records : List (List Byte)
  edges : List (Nat × Nat)
  nodes : List NodeState
  wake : Bool
  cancelled : Bool
  deriving DecidableEq, Repr

/-- A proofer (R428, R429). -/
structure Proofer where
  recipe : Nat
  count : Nat
  slots : Nat
  params : Nat
  header : Header
  /-- wakes baked since the PARK -/
  baked : Nat
  deriving DecidableEq, Repr

/-- A hardware queue (R402 to R441). -/
structure Queue where
  enable : Bool
  producerEnqueue : Bool
  ringHost : Bool
  state : QState
  stalled : Bool
  doorbellErr : Bool
  waitErr : Bool
  ringBase : DWord
  ringLog2 : BitVec 5
  head : Word
  tail : Word
  laneFirst : BitVec 8
  laneCount : BitVec 9
  eventBase : BitVec 12
  eventCount : BitVec 13
  arithFlags : BitVec 5
  progress : Word
  completed : Word
  wakes : Word
  faultRecord : List Byte
  deriving DecidableEq, Repr

/-- What the Oven keeps of a queue beside its registers. -/
structure QueueWork where
  /-- records enqueued and not yet published (R426) -/
  unpublished : Nat
  /-- ring positions at which a submission begins (R418) -/
  submissions : List Nat
  inFlight : List InFlight
  waits : List PendingWait
  bakes : List Bake
  nextBake : Nat
  proofer : Option Proofer
  /-- held by QUEUE_CTL STOP (log entry 13) -/
  held : Bool
  watchProgress : Word
  watchPeriods : Nat
  /-- parameter blocks read ahead (R423) -/
  blocks : List ParamBlock
  deriving DecidableEq, Repr

/-- A loaded recipe (R419, R422): the image and the 4 KiB units of the store that it takes. -/
structure Recipe where
  image : List Byte
  unit : Nat
  units : Nat
  deriving DecidableEq, Repr

/-- An event counter (R415). -/
structure Counter where
  value : BitVec 63
  err : Bool
  deriving DecidableEq, Repr

/-- The front end. Dwords last written to ADVANCE and SET (R417) are keyed counter · 32 + path, with 16 added for SET. -/
structure FrontEnd where
  queues : Sparse Queue
  work : Sparse QueueWork
  counters : Sparse Counter
  lowDwords : Sparse Word
  recipes : Sparse (Option Recipe)
  served : QueueId
  sliceOver : Bool
  /-- sub-queues, keyed cell · 64 + queue, oldest entry first (R406) -/
  subs : Sparse (List SubEntry)
  /-- cell sequencers, by cell -/
  sequencers : Sparse Sequencer
  deriving DecidableEq, Repr

/-! ### Serving -/

/-- The serving register block (R457). -/
structure ServeRegs where
  status : BitVec 2
  error : Half
  heartbeat : Word
  enable : Bool
  reqInHost : Bool
  tokInHost : Bool
  reqBase : DWord
  reqLog2 : BitVec 5
  reqTail : Word
  reqHead : Word
  tokBase : DWord
  tokLog2 : BitVec 5
  tokTail : Word
  tokHead : Word
  reqTailErr : Bool
  tokHeadErr : Bool
  userqResult : Word
  modelAddr : DWord
  modelStatus : Word
  deriving DecidableEq, Repr

/-! ### PCIe and JTAG -/

/-- The PCIe endpoint (R534 to R561). -/
structure Pcie where
  enabled : Bool
  up : Bool
  speed : BitVec 3
  width : BitVec 5
  flit : Bool
  d3hot : Bool
  msixEnable : Bool
  functionMask : Bool
  bar2Log : Nat
  accessErr : Bool
  hostReqErr : Bool
  accessErrOffset : BitVec 26
  accessErrBe : Byte
  accessErrCount : Word
  hostErrCount : Word
  windowLo : BitVec 2
  windowHi : BitVec 5
  /-- TIME_HI as latched by each path: 0 the host, 1 + n core n (R546) -/
  timeHi : Sparse Word
  /-- MSI-X table bytes, unlisted as at reset -/
  msixTable : Sparse Byte
  pendingBits : List Nat
  aerStatus : Word
  deriving DecidableEq, Repr

/-- The test access port (R718, R719). -/
structure Jtag where
  ir : Byte
  /-- the register selected between TDI and TDO: 0 bypass, 1 identification, 2 boundary scan, 3 factory test -/
  selected : BitVec 2
  boundary : BitVec 27
  preload : BitVec 27
  /-- outputs driven from the preload (EXTEST, CLAMP), or released (HIGHZ) -/
  driving : Bool
  released : Bool
  deriving DecidableEq, Repr

/-! ### Aelis -/

/-- The states of a port (R525). -/
inductive PortState where
  | disabled | dark | training | mismatch | up | down
  deriving DecidableEq, Repr

/-- Where the bytes of a DMA_COPY go (R409). -/
inductive CopyDest where
  /-- an offset of the buffers of the cells named -/
  | buffers (cells : List CellId) (offset : Nat)
  /-- a local address -/
  | memory (addr : Nat)
  /-- a local address of another device, by the port that leads there -/
  | remote (port : PortId) (addr : Nat)
  /-- a host bus address -/
  | host (addr : Nat)
  deriving DecidableEq, Repr

/-- What a response completes (R507, R515): which command of which queue, and where its data goes. -/
inductive Waiter where
  /-- a remote read of DMA_COPY -/
  | copy (queue : QueueId) (place : Place) (dest : CopyDest)
  /-- a remote write of DMA_COPY -/
  | write (queue : QueueId) (place : Place)
  /-- a page write of KV_APPEND: the page list of its sequence, the entry, the page, and how many rows -/
  | append (queue : QueueId) (place : Place) (list : DWord) (entry : Nat) (page : Word) (rows : Nat)
  /-- an atomic: the cell that issued it, the offset in its buffer where the old value goes, its code, value and compare
  value -/
  | atomic (queue : QueueId) (place : Place) (cell : CellId) (dest : Option Nat) (code value compare : Nat)
  /-- a page write of the runtime (R297): the page list of the sequence, and the page -/
  | rows (list : DWord) (page : Word)
  /-- a page read of KV_ATTEND: the fetch it belongs to, by its place, cell, query and entry, and the slots it brings -/
  | page (queue : QueueId) (place : Place) (cell : CellId) (index entry first count : Nat)
  deriving DecidableEq, Repr

/-- A request this device sent and that has no response yet. -/
structure Outstanding where
  tag : Nat
  opcode : Nat
  length : Nat
  waiter : Waiter
  deriving DecidableEq, Repr

/-- What is still to be sent of a transaction (R504): its channel's flit kind, the tag of a request, whether part of it has left, and its
remaining bytes. -/
structure Waiting where
  kind : Nat
  tag : Option Nat
  begun : Bool
  bytes : List Byte
  deriving DecidableEq, Repr

/-- An Aelis port (R487 to R533). Sequence numbers and counts are numbers modulo the width the flit gives them. -/
structure Port where
  state : PortState
  /-- the attempt has reached step 7 of R516: IDENT was sent and the peer's is awaited -/
  awaiting : Bool
  /-- sender: next SEQ, last ACK, unacknowledged flits oldest first, ACK whose NAK was answered, replay attempts -/
  nextSeq : Nat
  replay : List (Nat × List Byte)
  nakSeen : Option Nat
  attempts : Nat
  /-- receiver: SEQ expected, NAK owed, sequenced flits ignored until the expected one comes -/
  expected : Nat
  nakOwed : Bool
  ignoring : Bool
  /-- flit slots and frames sent; frames received -/
  slot : Nat
  frames : Nat
  framesIn : Nat
  /-- slots used, and freed by the peer's SKIPs, of REQ and RSP -/
  usedReq : Nat
  usedRsp : Nat
  freedReq : Nat
  freedRsp : Nat
  /-- slots of each channel's reserve in use (R502) -/
  reserveReq : Nat
  reserveRsp : Nat
  /-- slots this receiver freed, of REQ and RSP -/
  madeReq : Nat
  madeRsp : Nat
  /-- transactions that wait for slots or for the replay buffer, oldest first -/
  waiting : List Waiting
  /-- received transaction streams not yet whole -/
  streamReq : List Byte
  streamRsp : List Byte
  deriving DecidableEq, Repr

/-- What a port keeps beside its flit counters. -/
structure PortWork where
  /-- whole requests and responses received and not yet served, in order: header, extension and data, and whether a flit
  slot is freed with it (R503) -/
  requests : List (List Byte × Bool)
  responses : List (List Byte × Bool)
  /-- control flits received and not yet acted on -/
  control : List (List Byte)
  outstanding : List Outstanding
  /-- requests that wait for a tag (R509): opcode, header and data after the tag is put in, length, waiter -/
  queue : List (List Byte × Outstanding)
  nextTag : Nat
  badFrames : Nat
  badCounters : Nat
  /-- the failure of the port's latest training attempt, 0 when it came UP (R516, R647) -/
  failed : Nat
  deriving DecidableEq, Repr

/-- A port at link-up (R497, R499, R502). -/
def Port.blank : Port :=
  ⟨.disabled, false, 0, [], none, 0, 0, false, false, 0, 0, 0, 0, 0, 0, 0, 0, 0, 0, 0, [], [], []⟩

/-- A port with nothing received and nothing outstanding. -/
def PortWork.blank : PortWork := ⟨[], [], [], [], [], 0, 0, 0, 0⟩

/-! ### The serving runtime and the Starter tree -/

/-- A registered model (R460): what its manifest's header gives. -/
structure Model where
  tag : Nat
  vocabulary : Nat
  pool : Nat
  variants : Nat
  imageTokens : Nat
  imageBytes : Nat
  width : Nat
  deriving DecidableEq, Repr

/-- A GENERATE request that was read (R461): its fields, its tokens, and what was read with it. -/
structure ServeRequest where
  id : Nat
  variant : Nat
  flags : Nat
  model : Model
  prompt : List Nat
  seed : DWord
  temperature : F32
  topP : F32
  penalty : F32
  topK : Nat
  stops : List (List Nat)
  maxNew : Nat
  window : Nat
  attendFrom : Nat
  /-- the address field where encoder output is still to be written (R462) -/
  output : Option Nat
  /-- stored encoder output that the request brought (R462) -/
  encoded : List Byte
  /-- rows of PREFILLED -/
  rows : List Byte
  deriving DecidableEq, Repr

/-- A copy of a partial page that is still to complete (R335): the node held, its page, and how many slots are copied. -/
structure CopyHold where
  node : Nat
  page : Nat
  slots : Nat
  deriving DecidableEq, Repr

/-- A live sequence, or one ended and not yet released (R285, R341). Its length, pages and status are those of its page list in
memory. -/
structure Sequence where
  /-- sequence id 0 to 4,095 -/
  id : Nat
  request : ServeRequest
  place : SequencePlace
  /-- u of R336: the positions that shared pages and rows copied or written cover -/
  covered : Nat
  copy : Option CopyHold
  generated : List Nat
  /-- prompt rows are complete and the first token is sampled -/
  prefilled : Bool
  inserted : Bool
  /-- assembly number of its last step -/
  lastStep : Nat
  deferred : Bool
  ended : Bool
  deriving DecidableEq, Repr

/-- Something read from the request ring that waits for an assembly (R25, R474). -/
inductive Intake where
  | request (r : ServeRequest)
  | cancel (id : Nat)
  deriving DecidableEq, Repr

/-- A step in progress (R347): its number, whether it is a prefill, the lanes with the ids of their sequences, the queue that runs it,
the event counter and the value at which its last bake has completed, and the queue fault record of the reset that it was lost to
(R27). -/
structure StepRun where
  number : Nat
  prefill : Bool
  lanes : List (Nat × Nat)
  queue : QueueId
  counter : Nat
  target : Nat
  lost : Option (List Byte)
  deriving DecidableEq, Repr

/-- A token record before its stamp (R465). -/
structure TokenRec where
  request : Nat
  token : Option Nat
  position : Nat
  reason : Nat
  index : Nat
  flags : Nat
  novelty : F32
  detail : Nat
  encoder : Option (Nat × List Byte)
  deriving DecidableEq, Repr

/-- A page index that the runtime has mapped in a cell of this device (R282). -/
structure FrameMap where
  pool : Nat
  cell : Nat
  index : Nat
  frame : Nat
  deriving DecidableEq, Repr

/-- The serving runtime's own data (R451). -/
structure Runtime where
  models : List Model
  intake : List Intake
  sequences : List Sequence
  steps : List StepRun
  nextStep : Nat
  frames : List FrameMap
  /-- token records not yet written, oldest first (R468) -/
  held : List TokenRec
  /-- the UCLK count of the last token signal, and whether a record waits for the next (R466) -/
  lastSignal : Option Nat
  signalDue : Bool
  deriving DecidableEq, Repr

/-- A runtime with nothing in hand (R477). -/
def Runtime.blank : Runtime := ⟨[], [], [], [], 0, [], [], none, false⟩

/-- A VALID node of the Starter tree (R327), with its token record. -/
structure TreeNode where
  key : DWord
  page : Nat
  parent : Option Nat
  refs : Nat
  lastUse : Nat
  pool : Nat
  root : Bool
  depth : Nat
  rootRecord : List Byte
  tokens : List Nat
  deriving DecidableEq, Repr

/-- The Starter tree (R323 to R328): nodes by index, the hash chains as lists of node indices, the assembly number (R342), and where
its records lie in memory. -/
structure Tree where
  nodes : Sparse (Option TreeNode)
  chains : Sparse (List Nat)
  assembly : Nat
  place : TreePlace
  deriving DecidableEq, Repr

/-- An empty tree. -/
def Tree.blank : Tree := ⟨[], [], 0, ⟨0, 0, 0⟩⟩

/-! ### The on-die cores -/

/-- The privilege modes of a core (R449). -/
inductive CoreMode where
  | machine | supervisor | user
  deriving DecidableEq, Repr

/-- The registers of an RV64GCV core (R449): whether it is released from reset, its pc and mode, x1 to x31, f0 to f31, v0 to v31 of 256
bits, the dynamic rounding mode (0 is RNE), satp of Sv48, and the 16 PMP entries by their configuration and address. -/
structure Core where
  released : Bool
  pc : DWord
  mode : CoreMode
  x : Sparse DWord
  f : Sparse DWord
  v : Sparse (BitVec 256)
  rounding : BitVec 3
  satp : DWord
  pmp : Sparse (Byte × DWord)
  deriving DecidableEq, Repr

/-- A core held in reset: machine mode, RNE, and the pc at the boot ROM (R449, R450, R452). -/
def Core.blank : Core := ⟨false, 0x2000000000, .machine, [], [], [], 0, 0, []⟩

/-- The eight cores, with what stands beside them in their map (R450, R452): the digest register of the boot ROM, the timer compare and
inter-core interrupt registers by core, and the pending sources of the interrupt controller. -/
structure Cores where
  each : Sparse Core
  digest : List Byte
  timers : Sparse DWord
  signals : BitVec 8
  sources : List Nat
  deriving DecidableEq, Repr

/-- The cores in reset. -/
def Cores.blank : Cores := ⟨[], List.replicate 32 0, [], 0, []⟩

/-! ### The whole -/

/-- The state of the part: the queue of waiting commands, the groups above, and the model's own `fresh` (free values
drawn) and `out` (messages that left the device). -/
structure State where
  pending : List Instr
  power : Power
  life : Life
  sensors : Sensors
  ledger : Ledger
  log : Log
  uhleg : Uhleg
  update : Update
  mailbox : Mailbox
  corePort : Mailbox
  can : Can
  unlock : Unlock
  fuses : Fuses
  time : DWord
  mem : List Host.Cell
  memctl : MemoryCtl
  cache : Cache
  cells : Cells
  reed : Reed
  front : FrontEnd
  serve : ServeRegs
  runtime : Runtime
  tree : Tree
  cores : Cores
  ports : Sparse Port
  links : Sparse PortWork
  pcie : Pcie
  jtag : Jtag
  fresh : Nat
  out : List Out
  deriving DecidableEq, Repr

/-! ### Reset -/

/-- A queue at the end of a start (R402); lane window and event range by number (R414). -/
def Queue.blank (q : Nat) : Queue :=
  ⟨false, false, false, .disabled, false, false, false, 0, 4, 0, 0, 0, if q < 8 then 256 else 0,
    if q < 8 then BitVec.ofNat 12 (64 * q) else 0, if q < 8 then 64 else 0, 0, 0, 0, 0, List.replicate 32 0⟩

/-- A queue with no work. -/
def QueueWork.blank : QueueWork := ⟨0, [], [], [], [], 0, none, false, 0, 0, []⟩

/-- An event counter at the end of stage 7 (R415). -/
def Counter.blank : Counter := ⟨0, false⟩

/-- The front end at the end of stage 7. -/
def FrontEnd.blank : FrontEnd := ⟨[], [], [], [], [], 63, false, [], []⟩

/-- The serving registers at reset (R457). -/
def ServeRegs.blank : ServeRegs := ⟨0, 0, 0, false, false, false, 0, 8, 0, 0, 0, 12, 0, 0, false, false, 0, 0, 0⟩

/-- The memory controllers before any request. -/
def MemoryCtl.blank : MemoryCtl := ⟨[], [], [], 0⟩

/-- The cells as stage 7 leaves them (R228). -/
def Cells.blank : Cells := ⟨[], [], [], [], [], []⟩

/-- The endpoint in reset. -/
def Pcie.blank : Pcie :=
  ⟨false, false, 0, 0, false, false, false, false, 30, false, false, 0, 0, 0, 0, 0, 0, [], [], [], 0⟩

/-- No rail in its window. -/
def RailMarks.none : RailMarks := ⟨false, false, false, false, false, false⟩

/-- The part without power, which is the state it is in before VAUX33 first enters its window (R97, R98). Every register
for which the spec states no reset value holds the value of INVENTORY.md's line (log entries 3, 4 and 8). -/
def State.reset : State where
  pending := []
  power := ⟨.none, none, false, false, 0, false, false, false, 0⟩
  life := ⟨.off, 0, none, 0, false, false, false, false, true, false, none, [], false⟩
  sensors := ⟨[], [], [], false, false, []⟩
  ledger := ⟨[], [], false, 0, 0⟩
  log := ⟨[], 0, [], false⟩
  uhleg := ⟨.stopped, false, false, 0, 0, 0⟩
  update := ⟨.factory, .erased, .factory, .erased, [.uhlegA, .runtimeA], none, false, false, none, false, false⟩
  mailbox := .blank
  corePort := .blank
  can := ⟨[], false, 0⟩
  unlock := ⟨0, 0, 0, 0, List.replicate 32 0, 0⟩
  fuses := ⟨0, List.replicate 32 0, List.replicate 32 0, 720, 0, List.replicate 16 0, 0, 0, 0⟩
  time := 0
  mem := []
  memctl := .blank
  cache := ⟨[], []⟩
  cells := .blank
  reed := ⟨[], [], [], [], [], none⟩
  front := .blank
  serve := .blank
  runtime := .blank
  tree := .blank
  cores := .blank
  ports := []
  links := []
  pcie := .blank
  jtag := ⟨1, 1, 0, 0, false, false⟩
  fresh := 0
  out := []

end Sys2Proof.Machine
end

