-- ==== Sys2Proof/Machine/Catalogue.lean ====
section
/-! DEFINITION. Machine/Catalogue.lean: the Ledger catalogue (R604 to R628): for every entry its sub, type, number of
elements, access class, default, persistence and kind. The default of an entry that the hardware, a fuse, an image or
the factory supplies is 0 here; `Machine/Ledger.lean` computes its value. -/

namespace Sys2Proof.Machine

/-- The types of R563; an array is a number of elements beside the type. -/
inductive EType where
  | bool | u8 | u16 | u32 | u64 | i32 | f32 | str32 | blob (n : Nat) | u128
  deriving DecidableEq, Repr

/-- Bytes of one value (R563). -/
def EType.size : EType → Nat
  | .bool => 1
  | .u8 => 1
  | .u16 => 2
  | .u32 => 4
  | .u64 => 8
  | .i32 => 4
  | .f32 => 4
  | .str32 => 32
  | .blob n => n
  | .u128 => 16

/-- The type code that DESCRIBE returns (R563). -/
def EType.code : EType → Nat
  | .bool => 1
  | .u8 => 2
  | .u16 => 3
  | .u32 => 4
  | .u64 => 5
  | .i32 => 6
  | .f32 => 7
  | .str32 => 8
  | .blob _ => 9
  | .u128 => 11

/-- The access classes of R564. -/
inductive Access where
  | ro | rw | wo | rwc | lck | cst
  deriving DecidableEq, Repr

/-- The access class code of R564. -/
def Access.code : Access → Nat
  | .ro => 1
  | .rw => 2
  | .wo => 3
  | .rwc => 4
  | .lck => 5
  | .cst => 6

/-- Counter and maximum entries (R565). A counter entry is RW; 0x8000:04, an RO entry whose meaning also ends in that
word, is not one (log entry 19). -/
inductive EKind where
  | plain | counter | maximum
  deriving DecidableEq, Repr

/-- One row of the catalogue. -/
structure Entry where
  sub : Nat
  ty : EType
  /-- number of elements of an ARRAY -/
  array : Option Nat
  access : Access
  default : Nat
  persisted : Bool
  kind : EKind
  deriving DecidableEq, Repr

/-- Elements of an entry: 1 when it is no ARRAY (R568). -/
def Entry.elements (e : Entry) : Nat := e.array.getD 1

/-- Bytes of an entry. -/
def Entry.size (e : Entry) : Nat := e.elements * e.ty.size

/-- The entries of index 0x1000. -/
def entries1000 : List Entry := [
  -- Part code
  ⟨0x01, .u32, none, .cst, 0x00004800, false, .plain⟩,
  -- Code name (the text Folrithes)
  ⟨0x02, .str32, none, .cst, 0x7365687469726c6f46, false, .plain⟩,
  -- Silicon stepping (the text B1)
  ⟨0x03, .str32, none, .cst, 0x3142, false, .plain⟩,
  -- Serial number (default: Fused)
  ⟨0x04, .u64, none, .cst, 0, false, .plain⟩,
  -- Vendor (the text Ranweval Systems)
  ⟨0x05, .str32, none, .cst, 0x736d6574737953206c617665776e6152, false, .plain⟩,
  -- Product (the text Cledra CF4800)
  ⟨0x06, .str32, none, .cst, 0x30303834464320617264656c43, false, .plain⟩,
  -- Device id (default: HW)
  ⟨0x07, .u8, none, .ro, 0, false, .plain⟩,
  -- Tray id (default: HW)
  ⟨0x08, .u8, none, .ro, 0, false, .plain⟩,
  -- Manufacture date (default: Fused)
  ⟨0x09, .u32, none, .cst, 0, false, .plain⟩,
  -- Service key hash (default: Fused)
  ⟨0x0A, (.blob 32), none, .cst, 0, false, .plain⟩]

/-- The entries of index 0x1100. -/
def entries1100 : List Entry := [
  -- Device state
  ⟨0x01, .u8, none, .ro, 1, false, .plain⟩,
  -- Start stage
  ⟨0x02, .u8, none, .ro, 0, false, .plain⟩,
  -- Start counter
  ⟨0x03, .u8, none, .ro, 0, true, .plain⟩,
  -- Last start-failure reason
  ⟨0x04, .u32, none, .ro, 0, true, .plain⟩,
  -- Start failure records
  ⟨0x05, .u32, some 3, .ro, 0, true, .plain⟩,
  -- Clear start counter
  ⟨0x06, .bool, none, .wo, 0, false, .plain⟩,
  -- Peat entry cause
  ⟨0x07, .u8, none, .ro, 0, false, .plain⟩,
  -- Halt reason
  ⟨0x08, .u16, none, .ro, 0, true, .plain⟩,
  -- Memory readable while halted
  ⟨0x09, .bool, none, .ro, 0, false, .plain⟩,
  -- Service command
  ⟨0x10, .u8, none, .wo, 0, false, .plain⟩,
  -- Mesh mode
  ⟨0x11, .u8, none, .rwc, 1, true, .plain⟩,
  -- Required ports
  ⟨0x12, .u8, none, .rwc, 0x7F, true, .plain⟩,
  -- Service refusal reason
  ⟨0x13, .u8, none, .ro, 0, false, .plain⟩,
  -- Mesh complete
  ⟨0x14, .bool, none, .ro, 0, false, .plain⟩,
  -- BOOT_SAFE level
  ⟨0x15, .bool, none, .ro, 0, false, .plain⟩,
  -- Start duration
  ⟨0x16, .u32, none, .ro, 0, false, .plain⟩]

/-- The entries of index 0x2000. -/
def entries2000 : List Entry := [
  -- VCORE set point (default: Fused)
  ⟨0x01, .u16, none, .cst, 0, false, .plain⟩,
  -- Clock lock status (default: HW)
  ⟨0x02, .u16, none, .ro, 0, false, .plain⟩,
  -- Rail voltages (default: HW)
  ⟨0x10, .u16, some 6, .ro, 0, false, .plain⟩,
  -- Rail currents (default: HW)
  ⟨0x11, .u32, some 6, .ro, 0, false, .plain⟩,
  -- Package power (default: HW)
  ⟨0x12, .u32, none, .ro, 0, false, .plain⟩,
  -- Rail excursions
  ⟨0x13, .u32, some 6, .rw, 0, false, .counter⟩,
  -- Sequencing events
  ⟨0x14, .u32, none, .rw, 0, false, .counter⟩,
  -- VPRG request
  ⟨0x20, .bool, none, .ro, 0, false, .plain⟩,
  -- VPRG level (default: HW)
  ⟨0x21, .u16, none, .ro, 0, false, .plain⟩]

/-- The entries of index 0x2100. -/
def entries2100 : List Entry := [
  -- Cell junction temperatures (default: HW)
  ⟨0x01, .f32, some 16, .ro, 0, false, .plain⟩,
  -- DRAM layer temperatures (default: HW)
  ⟨0x02, .f32, some 8, .ro, 0, false, .plain⟩,
  -- Link region temperatures (default: HW)
  ⟨0x03, .f32, some 4, .ro, 0, false, .plain⟩,
  -- Peak temperatures
  ⟨0x04, .f32, some 28, .rw, 0, false, .maximum⟩,
  -- Sensor states
  ⟨0x05, .u8, some 28, .ro, 0, false, .plain⟩,
  -- Hot refresh active
  ⟨0x10, .bool, none, .ro, 0, false, .plain⟩,
  -- Hot refresh entries
  ⟨0x11, .u32, none, .rw, 0, false, .counter⟩,
  -- Thermal warnings
  ⟨0x12, .u32, none, .rw, 0, false, .counter⟩]

/-- The entries of index 0x3000. -/
def entries3000 : List Entry := [
  -- Populated memory
  ⟨0x01, .u64, none, .cst, 103079215104, false, .plain⟩,
  -- Refresh interval
  ⟨0x03, .u16, none, .ro, 4680, false, .plain⟩,
  -- Corrected errors
  ⟨0x10, .u32, some 16, .rw, 0, false, .counter⟩,
  -- Last corrected error
  ⟨0x11, .u64, none, .ro, 0, false, .plain⟩,
  -- Uncorrectable errors
  ⟨0x12, .u32, none, .ro, 0, true, .plain⟩,
  -- Last uncorrectable error
  ⟨0x13, .u64, none, .ro, 0, true, .plain⟩,
  -- Parity retries
  ⟨0x14, .u32, some 16, .rw, 0, false, .counter⟩,
  -- Retry exhaustion record
  ⟨0x15, .u32, none, .ro, 0, true, .plain⟩,
  -- Training margins
  ⟨0x20, .u16, some 512, .ro, 0, false, .plain⟩,
  -- Repaired connections
  ⟨0x21, .u16, some 16, .ro, 0, false, .plain⟩,
  -- Starvation promotions
  ⟨0x30, .u32, some 16, .rw, 0, false, .counter⟩,
  -- Longest wait
  ⟨0x31, .u16, some 16, .rw, 0, false, .maximum⟩,
  -- Scrub passes
  ⟨0x32, .u32, none, .ro, 0, false, .plain⟩,
  -- Scrub period
  ⟨0x40, .u16, none, .rwc, 24, true, .plain⟩]

/-- The entries of index 0x3400. -/
def entries3400 : List Entry := [
  -- Cached window size
  ⟨0x01, .u16, some 16, .rwc, 256, true, .plain⟩,
  -- Cache capacity
  ⟨0x02, .u32, none, .cst, 134217728, false, .plain⟩,
  -- Slice corrected errors
  ⟨0x10, .u32, some 16, .rw, 0, false, .counter⟩,
  -- Slice hits
  ⟨0x20, .u64, some 16, .rw, 0, false, .counter⟩,
  -- Slice misses
  ⟨0x21, .u64, some 16, .rw, 0, false, .counter⟩,
  -- Atomics performed
  ⟨0x30, .u64, some 16, .rw, 0, false, .counter⟩,
  -- Atomics refused
  ⟨0x31, .u32, none, .rw, 0, false, .counter⟩,
  -- Merges completed
  ⟨0x40, .u64, some 16, .rw, 0, false, .counter⟩,
  -- Partials spilled
  ⟨0x41, .u64, some 16, .rw, 0, false, .counter⟩,
  -- Merge errors
  ⟨0x42, .u32, none, .rw, 0, false, .counter⟩]

/-- The entries of index 0x4000 to 0x400F, shown for cell 0. -/
def entries4000 : List Entry := [
  -- Cell position (default: Per cell)
  ⟨0x01, .u8, none, .cst, 0, false, .plain⟩,
  -- Cell self-test result
  ⟨0x02, .u32, none, .ro, 0, false, .plain⟩,
  -- Kneader passes
  ⟨0x10, .u64, none, .rw, 0, false, .counter⟩,
  -- Kneader busy cycles
  ⟨0x11, .u64, none, .rw, 0, false, .counter⟩,
  -- Sieve operations
  ⟨0x12, .u64, none, .rw, 0, false, .counter⟩,
  -- NaN results
  ⟨0x20, .u64, none, .rw, 0, false, .counter⟩,
  -- Infinity results
  ⟨0x21, .u64, none, .rw, 0, false, .counter⟩,
  -- FP8 saturations
  ⟨0x22, .u64, none, .rw, 0, false, .counter⟩,
  -- Cell buffer corrected errors
  ⟨0x30, .u32, none, .rw, 0, false, .counter⟩,
  -- Fabric corrected errors
  ⟨0x31, .u32, none, .rw, 0, false, .counter⟩,
  -- Last cell uncorrectable error
  ⟨0x32, .u32, none, .ro, 0, true, .plain⟩,
  -- Delta blocks expanded
  ⟨0x40, .u64, some 3, .rw, 0, false, .counter⟩,
  -- Delta faults
  ⟨0x41, .u32, none, .rw, 0, false, .counter⟩,
  -- Last delta fault
  ⟨0x42, .u64, none, .ro, 0, false, .plain⟩,
  -- Base latch hits
  ⟨0x43, .u64, none, .rw, 0, false, .counter⟩]

/-- The entries of index 0x5000. -/
def entries5000 : List Entry := [
  -- Live sequence limit
  ⟨0x01, .u16, none, .cst, 4096, false, .plain⟩,
  -- Sequence length limit
  ⟨0x02, .u32, none, .cst, 65536, false, .plain⟩,
  -- Pool 0–7 descriptor
  ⟨0x10, (.blob 64), none, .rwc, 0, false, .plain⟩,
  -- Pool 0–7 descriptor
  ⟨0x11, (.blob 64), none, .rwc, 0, false, .plain⟩,
  -- Pool 0–7 descriptor
  ⟨0x12, (.blob 64), none, .rwc, 0, false, .plain⟩,
  -- Pool 0–7 descriptor
  ⟨0x13, (.blob 64), none, .rwc, 0, false, .plain⟩,
  -- Pool 0–7 descriptor
  ⟨0x14, (.blob 64), none, .rwc, 0, false, .plain⟩,
  -- Pool 0–7 descriptor
  ⟨0x15, (.blob 64), none, .rwc, 0, false, .plain⟩,
  -- Pool 0–7 descriptor
  ⟨0x16, (.blob 64), none, .rwc, 0, false, .plain⟩,
  -- Pool 0–7 descriptor
  ⟨0x17, (.blob 64), none, .rwc, 0, false, .plain⟩,
  -- Rows appended
  ⟨0x20, .u64, none, .rw, 0, false, .counter⟩,
  -- Local pages attended
  ⟨0x21, .u64, none, .rw, 0, false, .counter⟩,
  -- Remote pages attended
  ⟨0x22, .u64, none, .rw, 0, false, .counter⟩,
  -- Remote pages served
  ⟨0x23, .u64, none, .rw, 0, false, .counter⟩,
  -- Empty attention queries
  ⟨0x24, .u64, none, .rw, 0, false, .counter⟩,
  -- Remote aborts
  ⟨0x25, .u32, none, .rw, 0, false, .counter⟩,
  -- KV faults
  ⟨0x26, .u32, none, .rw, 0, false, .counter⟩,
  -- Last KV fault
  ⟨0x27, .u64, none, .ro, 0, false, .plain⟩]

/-- The entries of index 0x5400. -/
def entries5400 : List Entry := [
  -- Tree enable
  ⟨0x01, .bool, none, .rwc, 1, true, .plain⟩,
  -- Node capacity
  ⟨0x02, .u32, none, .rwc, 16384, true, .plain⟩,
  -- Insert depth limit
  ⟨0x03, .u16, none, .rw, 16, true, .plain⟩,
  -- Low-water marks
  ⟨0x10, .u32, some 8, .rw, 32, true, .plain⟩,
  -- High-water marks
  ⟨0x11, .u32, some 8, .rw, 48, true, .plain⟩,
  -- Lookups
  ⟨0x20, .u64, none, .rw, 0, false, .counter⟩,
  -- Hits
  ⟨0x21, .u64, none, .rw, 0, false, .counter⟩,
  -- Rejected collisions
  ⟨0x22, .u64, none, .rw, 0, false, .counter⟩,
  -- Inserts
  ⟨0x23, .u64, none, .rw, 0, false, .counter⟩,
  -- Evictions
  ⟨0x24, .u64, none, .rw, 0, false, .counter⟩,
  -- Partial page copies
  ⟨0x25, .u64, none, .rw, 0, false, .counter⟩,
  -- Nodes in use
  ⟨0x26, .u32, none, .ro, 0, false, .plain⟩,
  -- Shared references
  ⟨0x27, .u32, none, .ro, 0, false, .plain⟩,
  -- Deferred sequences
  ⟨0x28, .u64, none, .rw, 0, false, .counter⟩,
  -- Last step buckets
  ⟨0x30, .u16, some 12, .ro, 0, false, .plain⟩,
  -- Flush tree
  ⟨0x40, .bool, none, .wo, 0, false, .plain⟩]

/-- The entries of index 0x6000. -/
def entries6000 : List Entry := [
  -- Queue count
  ⟨0x01, .u8, none, .cst, 64, false, .plain⟩,
  -- Kernel queues
  ⟨0x02, .u8, none, .cst, 8, false, .plain⟩,
  -- Event counters
  ⟨0x03, .u16, none, .cst, 4096, false, .plain⟩,
  -- Recipe capacity
  ⟨0x04, .u16, none, .cst, 1024, false, .plain⟩,
  -- Time slice
  ⟨0x10, .u16, none, .rw, 20, true, .plain⟩,
  -- Watch period
  ⟨0x11, .u16, none, .rw, 10, true, .plain⟩,
  -- Stall limit
  ⟨0x12, .u8, none, .rw, 4, true, .plain⟩,
  -- Stall action
  ⟨0x13, .u8, none, .rw, 1, true, .plain⟩,
  -- Recipe store base
  ⟨0x20, .u64, none, .rwc, 0x210000000, true, .plain⟩,
  -- Recipe store size
  ⟨0x21, .u16, none, .rwc, 64, true, .plain⟩,
  -- Recipes loaded
  ⟨0x22, .u16, none, .ro, 0, false, .plain⟩,
  -- Recipe store free
  ⟨0x23, .u32, none, .ro, 65536, false, .plain⟩,
  -- Queue faults
  ⟨0x30, .u32, some 64, .rw, 0, false, .counter⟩,
  -- Last queue fault
  ⟨0x31, (.blob 32), none, .ro, 0, false, .plain⟩,
  -- Stalls detected
  ⟨0x32, .u32, none, .rw, 0, false, .counter⟩,
  -- Bakes
  ⟨0x33, .u64, some 64, .rw, 0, false, .counter⟩,
  -- Queue states
  ⟨0x34, .u8, some 64, .ro, 0, false, .plain⟩]

/-- The entries of index 0x6400. -/
def entries6400 : List Entry := [
  -- Runtime version (default: From the image)
  ⟨0x01, .str32, none, .ro, 0, false, .plain⟩,
  -- Runtime state
  ⟨0x02, .u8, none, .ro, 0, false, .plain⟩,
  -- Runtime error
  ⟨0x03, .u16, none, .ro, 0, false, .plain⟩,
  -- Watchdog period
  ⟨0x10, .u16, none, .rw, 100, true, .plain⟩,
  -- Token interrupt interval
  ⟨0x11, .u16, none, .rw, 20, true, .plain⟩,
  -- Peer frame lease
  ⟨0x12, .u32, some 8, .rwc, 0, true, .plain⟩,
  -- Requests read
  ⟨0x20, .u64, none, .rw, 0, false, .counter⟩,
  -- Requests rejected
  ⟨0x21, .u64, none, .rw, 0, false, .counter⟩,
  -- Tokens delivered
  ⟨0x22, .u64, none, .rw, 0, false, .counter⟩,
  -- Cancels ignored
  ⟨0x23, .u32, none, .rw, 0, false, .counter⟩,
  -- Aborts written
  ⟨0x24, .u32, none, .rw, 0, false, .counter⟩,
  -- Non-finite samples
  ⟨0x25, .u64, none, .rw, 0, false, .counter⟩,
  -- Live sequences
  ⟨0x26, .u16, none, .ro, 0, false, .plain⟩]

/-- The entries of index 0x6800. -/
def entries6800 : List Entry := [
  -- Weight rows per array
  ⟨0x01, .u16, none, .cst, 1008, false, .plain⟩,
  -- Endurance rating
  ⟨0x02, .u32, none, .cst, 100000, false, .plain⟩,
  -- Group states
  ⟨0x10, .u8, some 256, .ro, 0, true, .plain⟩,
  -- Group content tags
  ⟨0x11, .u64, some 256, .ro, 0, true, .plain⟩,
  -- Endurance counts (default: Factory value)
  ⟨0x12, .u32, some 256, .ro, 0, true, .plain⟩,
  -- Column gain trims
  ⟨0x13, .u16, some 4096, .ro, 512, true, .plain⟩,
  -- Last program status
  ⟨0x14, .u128, some 16, .ro, 0, true, .plain⟩,
  -- Last Reed fault
  ⟨0x15, .u32, none, .ro, 0, false, .plain⟩,
  -- Test interval
  ⟨0x20, .u16, none, .rw, 100, true, .plain⟩,
  -- Statistical monitor enable
  ⟨0x21, .bool, none, .rw, 1, true, .plain⟩,
  -- Reed vectors run
  ⟨0x30, .u64, some 16, .rw, 0, false, .counter⟩,
  -- Test checks failed
  ⟨0x31, .u32, some 16, .rw, 0, false, .counter⟩,
  -- Recalibrations
  ⟨0x32, .u32, some 16, .rw, 0, false, .counter⟩,
  -- Saturated conversions
  ⟨0x33, .u64, some 16, .rw, 0, false, .counter⟩,
  -- FRAME_SYNC count
  ⟨0x40, .u64, none, .ro, 0, false, .plain⟩,
  -- Last FRAME_SYNC time
  ⟨0x41, .u64, none, .ro, 0, false, .plain⟩,
  -- FRAME_SYNC event counter
  ⟨0x42, .u16, none, .rwc, 4095, true, .plain⟩,
  -- Frame overruns
  ⟨0x43, .u32, none, .rw, 0, false, .counter⟩,
  -- Ignored FRAME_SYNC edges
  ⟨0x44, .u32, none, .rw, 0, false, .counter⟩]

/-- The entries of index 0x7000. -/
def entries7000 : List Entry := [
  -- Port states
  ⟨0x01, .u8, some 8, .ro, 0, false, .plain⟩,
  -- Port enable
  ⟨0x02, .u8, none, .rwc, 0xFF, true, .plain⟩,
  -- Peer identity
  ⟨0x03, .u64, some 8, .ro, 0, false, .plain⟩,
  -- Link epochs
  ⟨0x04, .u32, some 8, .ro, 0, false, .plain⟩,
  -- Laser input power
  ⟨0x10, .u16, some 32, .ro, 0, false, .plain⟩,
  -- Lane receive power
  ⟨0x11, .u16, some 512, .ro, 0, false, .plain⟩,
  -- Corrected symbols
  ⟨0x20, .u64, some 8, .rw, 0, false, .counter⟩,
  -- Uncorrectable frames
  ⟨0x21, .u64, some 8, .rw, 0, false, .counter⟩,
  -- Replays
  ⟨0x22, .u32, some 8, .rw, 0, false, .counter⟩,
  -- Last link-down cause
  ⟨0x23, .u8, some 8, .ro, 0, false, .plain⟩,
  -- Last training failure
  ⟨0x24, .u8, some 8, .ro, 0, false, .plain⟩,
  -- TARGET_GONE completions
  ⟨0x25, .u32, some 8, .rw, 0, false, .counter⟩,
  -- Address-error completions
  ⟨0x26, .u32, some 8, .rw, 0, false, .counter⟩,
  -- Link-down events
  ⟨0x27, .u32, some 8, .rw, 0, false, .counter⟩,
  -- Payload bytes sent
  ⟨0x30, .u64, some 8, .rw, 0, false, .counter⟩,
  -- Payload bytes received
  ⟨0x31, .u64, some 8, .rw, 0, false, .counter⟩]

/-- The entries of index 0x7800. -/
def entries7800 : List Entry := [
  -- Link speed
  ⟨0x01, .u8, none, .ro, 0, false, .plain⟩,
  -- Link width
  ⟨0x02, .u8, none, .ro, 0, false, .plain⟩,
  -- Flit mode
  ⟨0x03, .bool, none, .ro, 0, false, .plain⟩,
  -- BAR2 size
  ⟨0x04, .u8, none, .ro, 30, false, .plain⟩,
  -- Speed limit
  ⟨0x05, .u8, none, .rwc, 6, true, .plain⟩,
  -- Link-down events
  ⟨0x10, .u32, none, .rw, 0, false, .counter⟩,
  -- Correctable errors
  ⟨0x11, .u32, none, .rw, 0, false, .counter⟩,
  -- Non-fatal errors
  ⟨0x12, .u32, none, .rw, 0, false, .counter⟩,
  -- Fatal errors
  ⟨0x13, .u32, none, .rw, 0, false, .counter⟩,
  -- AER uncorrectable status
  ⟨0x14, .u32, none, .ro, 0, false, .plain⟩,
  -- Unserved BAR2 requests
  ⟨0x15, .u32, none, .rw, 0, false, .counter⟩,
  -- Host request failures
  ⟨0x16, .u32, none, .rw, 0, false, .counter⟩,
  -- BAR0 access errors
  ⟨0x17, .u32, none, .rw, 0, false, .counter⟩]

/-- The entries of index 0x8000. -/
def entries8000 : List Entry := [
  -- Uhleg firmware version (default: From the image)
  ⟨0x01, .str32, none, .ro, 0, false, .plain⟩,
  -- Bank image versions (default: HW)
  ⟨0x02, .str32, some 4, .ro, 0, false, .plain⟩,
  -- Active banks
  ⟨0x03, .u8, none, .ro, 0, true, .plain⟩,
  -- Rollback counter (default: Fused)
  ⟨0x04, .u32, none, .ro, 0, false, .plain⟩,
  -- Uhleg restarts
  ⟨0x05, .u32, none, .rw, 0, true, .counter⟩,
  -- Restart management core
  ⟨0x06, .bool, none, .wo, 0, false, .plain⟩,
  -- Log records written
  ⟨0x10, .u32, none, .ro, 0, true, .plain⟩,
  -- Log read position
  ⟨0x11, .u32, none, .rw, 0, false, .plain⟩,
  -- Log block
  ⟨0x12, (.blob 2048), none, .ro, 0, false, .plain⟩,
  -- Log warnings
  ⟨0x13, .u32, none, .rw, 0, false, .counter⟩,
  -- Log records lost
  ⟨0x14, .u32, none, .rw, 0, false, .counter⟩,
  -- CAN node number (default: HW)
  ⟨0x20, .u8, none, .ro, 0, false, .plain⟩,
  -- CAN frames received
  ⟨0x21, .u64, none, .rw, 0, false, .counter⟩,
  -- CAN frames sent
  ⟨0x22, .u64, none, .rw, 0, false, .counter⟩,
  -- CAN error frames
  ⟨0x23, .u32, none, .rw, 0, false, .counter⟩,
  -- CAN bus-off events
  ⟨0x24, .u32, none, .rw, 0, false, .counter⟩,
  -- Transfers aborted
  ⟨0x25, .u32, none, .rw, 0, false, .counter⟩,
  -- Ledger requests served
  ⟨0x26, .u64, none, .rw, 0, false, .counter⟩,
  -- Last abort
  ⟨0x27, .u64, none, .ro, 0, false, .plain⟩,
  -- Unlock challenge (default: HW)
  ⟨0x30, (.blob 32), none, .ro, 0, false, .plain⟩,
  -- Unlock response
  ⟨0x31, (.blob 128), none, .wo, 0, false, .plain⟩,
  -- Unlock state
  ⟨0x32, .u8, none, .ro, 0, false, .plain⟩,
  -- Unlock holder
  ⟨0x33, .u8, none, .ro, 0, false, .plain⟩,
  -- Unlock remaining
  ⟨0x34, .u32, none, .ro, 0, false, .plain⟩,
  -- Relock
  ⟨0x35, .bool, none, .wo, 0, false, .plain⟩,
  -- Unlock failures
  ⟨0x36, .u32, none, .rw, 0, false, .counter⟩,
  -- Update target
  ⟨0x40, .u8, none, .rw, 0, false, .plain⟩,
  -- Update length
  ⟨0x41, .u32, none, .rw, 0, false, .plain⟩,
  -- Update data
  ⟨0x42, (.blob 1024), none, .wo, 0, false, .plain⟩,
  -- Update received
  ⟨0x43, .u32, none, .ro, 0, false, .plain⟩,
  -- Update command
  ⟨0x44, .u8, none, .wo, 0, false, .plain⟩,
  -- Update status
  ⟨0x45, .u8, none, .ro, 0, false, .plain⟩,
  -- Update failure
  ⟨0x46, .u8, none, .ro, 0, false, .plain⟩,
  -- Time (default: HW)
  ⟨0x50, .u64, none, .ro, 0, false, .plain⟩,
  -- Set time
  ⟨0x51, .u64, none, .wo, 0, false, .plain⟩]

/-- The entries of index 0x9000. -/
def entries9000 : List Entry := [
  -- Factory test access
  ⟨0x01, .bool, none, .lck, 0, false, .plain⟩,
  -- Clear error history
  ⟨0x02, .bool, none, .lck, 0, false, .plain⟩,
  -- Clear start history
  ⟨0x03, .bool, none, .lck, 0, false, .plain⟩,
  -- Rail monitor trims
  ⟨0x10, .u16, some 6, .lck, 32768, true, .plain⟩,
  -- Temperature offsets
  ⟨0x11, .i32, some 28, .lck, 0, true, .plain⟩,
  -- Manufacturing record (default: Factory value)
  ⟨0x20, (.blob 256), none, .lck, 0, true, .plain⟩,
  -- Service history
  ⟨0x21, .str32, some 8, .lck, 0x0, true, .plain⟩]

/-- The entries of an index, without sub 0x00. -/
def indexEntries (index : Nat) : List Entry :=
  if index = 0x1000 then entries1000 else
  if index = 0x1100 then entries1100 else
  if index = 0x2000 then entries2000 else
  if index = 0x2100 then entries2100 else
  if index = 0x3000 then entries3000 else
  if index = 0x3400 then entries3400 else
  if 0x4000 ≤ index ∧ index ≤ 0x400F then entries4000 else
  if index = 0x5000 then entries5000 else
  if index = 0x5400 then entries5400 else
  if index = 0x6000 then entries6000 else
  if index = 0x6400 then entries6400 else
  if index = 0x6800 then entries6800 else
  if index = 0x7000 then entries7000 else
  if index = 0x7800 then entries7800 else
  if index = 0x8000 then entries8000 else
  if index = 0x9000 then entries9000 else
  []

/-- Sub 0x00 of an index that holds entries: a constant U8, the highest sub in use (R562). -/
def subZero (l : List Entry) : Entry := ⟨0, .u8, none, .cst, (l.map Entry.sub).foldl max 0, false, .plain⟩

/-- The entry at index:sub (R604). -/
def findEntry (index sub : Nat) : Option Entry :=
  match indexEntries index with
  | [] => none
  | l => if sub = 0 then some (subZero l) else l.find? fun e => e.sub == sub

/-- Every index that holds entries. -/
def ledgerIndices : List Nat := [
  0x1000, 0x1100, 0x2000, 0x2100, 0x3000, 0x3400,
  0x4000, 0x4001, 0x4002, 0x4003, 0x4004, 0x4005, 0x4006, 0x4007, 0x4008, 0x4009, 0x400A, 0x400B, 0x400C, 0x400D, 0x400E, 0x400F,
  0x5000, 0x5400, 0x6000, 0x6400, 0x6800, 0x7000, 0x7800, 0x8000, 0x9000]

end Sys2Proof.Machine
end

