-- ==== Sys2Proof/Machine/Crypto.lean ====
section
/-! DEFINITION. Machine/Crypto.lean: the standard functions that the spec names: SHA-256 and SHA-512 (FIPS 180-4),
Ed25519 verification (RFC 8032), SipHash-2-4, Philox4x32-10, CRC-16 and CRC-32. -/

namespace Sys2Proof.Machine

/-! ### SHA-2 -/

/-- Big-endian number of bytes. -/
def ofBytesBE (l : List Byte) : Nat := l.foldl (fun a b => a * 256 + b.toNat) 0

/-- The `n` big-endian bytes of a number. -/
def toBytesBE (n v : Nat) : List Byte := (toBytes n v).reverse

/-- The primes from which FIPS 180-4 takes its constants: those below 410, of which there are 80. -/
def shaPrimes : List Nat := (countFrom 2 408).filter fun n => (countFrom 2 19).all fun d => n ≤ d || n % d != 0

/-- The greatest x with x^k ≤ n, by its bits from bit `bits - 1` down. -/
def rootBelow (k n : Nat) : Nat → Nat → Nat
  | 0, x => x
  | b + 1, x => rootBelow k n b (if (x + 2 ^ b) ^ k ≤ n then x + 2 ^ b else x)

/-- The first 64 bits of the fractional part of the k-th root of p (FIPS 180-4, 4.2 and 5.3). -/
def rootFraction (k p : Nat) : Nat := rootBelow k (p * 2 ^ (64 * k)) 70 0 % 2 ^ 64

/-- Round constants of SHA-512: cube roots of the first 80 primes. -/
def sha512K : List DWord := shaPrimes.map fun p => BitVec.ofNat 64 (rootFraction 3 p)

/-- Initial hash value of SHA-512: square roots of the first eight primes. -/
def sha512H : List DWord := (shaPrimes.take 8).map fun p => BitVec.ofNat 64 (rootFraction 2 p)

/-- The first 32 bits of each constant, from which SHA-256 takes its own. -/
def highWords (l : List DWord) : List Word := l.map fun c => BitVec.ofNat 32 (c.toNat / 2 ^ 32)

/-- Round constants of SHA-256: those of the first 64 primes. -/
def sha256K : List Word := highWords (sha512K.take 64)

/-- Initial hash value of SHA-256. -/
def sha256H : List Word := highWords sha512H

/-- The message with its padding, in blocks: a set bit, zeros, and the length in bits in the last `lenBytes` bytes of a
block of `block` bytes. -/
def shaPad (block lenBytes : Nat) (m : List Byte) : List (List Byte) :=
  let zeros := (2 * block - 1 - lenBytes - m.length % block) % block
  chunks block (m ++ [0x80] ++ List.replicate zeros 0 ++ toBytesBE lenBytes (8 * m.length))

/-- The rotations and shifts of one member of the SHA-2 family. -/
structure ShaShifts where
  e : Nat × Nat × Nat
  a : Nat × Nat × Nat
  s0 : Nat × Nat × Nat
  s1 : Nat × Nat × Nat

/-- Exclusive or of three rotations. -/
def rot3 {w : Nat} (x : BitVec w) (r : Nat × Nat × Nat) : BitVec w :=
  x.rotateRight r.1 ^^^ x.rotateRight r.2.1 ^^^ x.rotateRight r.2.2

/-- Exclusive or of two rotations and a shift. -/
def rot2 {w : Nat} (x : BitVec w) (r : Nat × Nat × Nat) : BitVec w :=
  x.rotateRight r.1 ^^^ x.rotateRight r.2.1 ^^^ x >>> r.2.2

/-- One round on the eight working variables. -/
def shaRound {w : Nat} (p : ShaShifts) (v : List (BitVec w)) (kw : BitVec w) : List (BitVec w) :=
  match v with
  | [a, b, c, d, e, f, g, h] =>
    let t1 := h + rot3 e p.e + ((e &&& f) ^^^ (~~~e &&& g)) + kw
    let t2 := rot3 a p.a + ((a &&& b) ^^^ (a &&& c) ^^^ (b &&& c))
    [t1 + t2, a, b, c, d + t1, e, f, g]
  | l => l

/-- The rounds: the message schedule is a window of sixteen words that slides by one word a round. -/
def shaRounds {w : Nat} (p : ShaShifts) : List (BitVec w) → List (BitVec w) → List (BitVec w) → List (BitVec w)
  | [], _, v => v
  | k :: ks, win, v =>
    let w0 := win.headD 0
    let next := rot2 (win.getD 14 0) p.s1 + win.getD 9 0 + rot2 (win.getD 1 0) p.s0 + w0
    shaRounds p ks (win.drop 1 ++ [next]) (shaRound p v (k + w0))

/-- One block. -/
def shaBlock {w : Nat} (p : ShaShifts) (ks : List (BitVec w)) (h : List (BitVec w)) (block : List Byte) :
    List (BitVec w) :=
  let win := (chunks (w / 8) block).map fun b => BitVec.ofNat w (ofBytesBE b)
  (h.zip (shaRounds p ks win h)).map fun x => x.1 + x.2

/-- SHA-256 (FIPS 180-4). -/
def sha256 (m : List Byte) : List Byte :=
  ((shaPad 64 8 m).foldl (shaBlock ⟨(6, 11, 25), (2, 13, 22), (7, 18, 3), (17, 19, 10)⟩ sha256K) sha256H).flatMap
    fun x => toBytesBE 4 x.toNat

/-- SHA-512 (FIPS 180-4). -/
def sha512 (m : List Byte) : List Byte :=
  ((shaPad 128 16 m).foldl (shaBlock ⟨(14, 18, 41), (28, 34, 39), (1, 8, 7), (19, 61, 6)⟩ sha512K) sha512H).flatMap
    fun x => toBytesBE 8 x.toNat

/-! ### Ed25519 -/

/-- The field prime of edwards25519. -/
def edP : Nat := 2 ^ 255 - 19

/-- The order of the base point. -/
def edL : Nat := 2 ^ 252 + 27742317777372353535851937790883648493

/-- x^n modulo the field prime; `fuel` is at least the number of bits of n. -/
def edPow (x : Nat) : Nat → Nat → Nat
  | 0, _ => 1
  | fuel + 1, n =>
    if n = 0 then 1
    else
      let h := edPow (x * x % edP) fuel (n / 2)
      if n % 2 = 1 then h * x % edP else h

/-- The inverse modulo the field prime. -/
def edInv (x : Nat) : Nat := edPow x 256 (edP - 2)

/-- The curve constant d = −121665 / 121666. -/
def edD : Nat := (edP - 121665) * edInv 121666 % edP

/-- A point in projective coordinates (X, Y, Z). -/
structure EdPoint where
  x : Nat
  y : Nat
  z : Nat
  deriving DecidableEq, Repr

/-- The sum of two points (RFC 8032, 5.1.4, in projective form). -/
def EdPoint.add (p q : EdPoint) : EdPoint :=
  let a := p.z * q.z % edP
  let b := a * a % edP
  let c := p.x * q.x % edP
  let d := p.y * q.y % edP
  let e := edD * (c * d % edP) % edP
  let f := (b + edP - e) % edP
  let g := (b + e) % edP
  let xy := (p.x + p.y) * (q.x + q.y) % edP
  { x := a * f % edP * ((xy + 2 * edP - c - d) % edP) % edP
    y := a * g % edP * ((d + c) % edP) % edP
    z := f * g % edP }

/-- A multiple of a point; `fuel` is at least the number of bits of the factor. -/
def EdPoint.mul (p : EdPoint) : Nat → Nat → EdPoint
  | 0, _ => ⟨0, 1, 1⟩
  | fuel + 1, n =>
    if n = 0 then ⟨0, 1, 1⟩
    else
      let h := EdPoint.mul (p.add p) fuel (n / 2)
      if n % 2 = 1 then h.add p else h

/-- Two projective points are the same point. -/
def EdPoint.same (p q : EdPoint) : Bool :=
  p.x * q.z % edP == q.x * p.z % edP && p.y * q.z % edP == q.y * p.z % edP

/-- The point that 32 bytes encode (RFC 8032, 5.1.3), or none. -/
def edDecode (b : List Byte) : Option EdPoint :=
  let v := ofBytes b
  let y := v % 2 ^ 255
  let sign := v / 2 ^ 255
  if edP ≤ y then none
  else
    let u := (y * y + edP - 1) % edP
    let w := (edD * (y * y % edP) + 1) % edP
    let x0 := u * edPow w 4 3 % edP * edPow (u * edPow w 4 7 % edP) 256 ((edP - 5) / 8) % edP
    let vx := w * (x0 * x0 % edP) % edP
    let x1 := if vx = u then some x0
      else if vx = (edP - u) % edP then some (x0 * edPow 2 256 ((edP - 1) / 4) % edP) else none
    match x1 with
    | none => none
    | some x =>
      if x = 0 ∧ sign = 1 then none
      else some ⟨if x % 2 = sign then x else (edP - x) % edP, y, 1⟩

/-- The base point: y = 4/5, x even. -/
def edBase : Option EdPoint := edDecode (toBytes 32 (4 * edInv 5 % edP))

/-- Ed25519 verification with the group equation of RFC 8032, 5.1.7: 8·S·B = 8·R + 8·k·A. -/
def ed25519Verify (key sig msg : List Byte) : Bool :=
  let s := ofBytes (sig.drop 32)
  let k := ofBytes (sha512 (sig.take 32 ++ key ++ msg)) % edL
  match edBase, edDecode key, edDecode (sig.take 32) with
  | some b, some a, some r =>
    decide (s < edL) && decide (sig.length = 64) && decide (key.length = 32) &&
      ((b.mul 256 s).mul 4 8).same (((r.add (a.mul 256 k))).mul 4 8)
  | _, _, _ => false

/-! ### SipHash-2-4 -/

/-- One SipRound. -/
def sipRound : List DWord → List DWord
  | [a, b, c, d] =>
    let a := a + b
    let b := b.rotateLeft 13 ^^^ a
    let a := a.rotateLeft 32
    let c := c + d
    let d := d.rotateLeft 16 ^^^ c
    let a := a + d
    let d := d.rotateLeft 21 ^^^ a
    let c := c + b
    let b := b.rotateLeft 17 ^^^ c
    let c := c.rotateLeft 32
    [a, b, c, d]
  | l => l

/-- A word taken in: two rounds. -/
def sipWord (v : List DWord) (m : DWord) : List DWord :=
  match v with
  | [a, b, c, d] =>
    match sipRound (sipRound [a, b, c, d ^^^ m]) with
    | [a, b, c, d] => [a ^^^ m, b, c, d]
    | l => l
  | l => l

/-- SipHash-2-4 of a message under a 16 B key. -/
def sipHash (key msg : List Byte) : DWord :=
  let k0 := BitVec.ofNat 64 (ofBytes (key.take 8))
  let k1 := BitVec.ofNat 64 (ofBytes ((key.drop 8).take 8))
  let full := msg.length / 8
  let last := ofBytes (msg.drop (8 * full)) + msg.length % 256 * 2 ^ 56
  let words := (chunks 8 (msg.take (8 * full))).map (fun b => BitVec.ofNat 64 (ofBytes b)) ++ [BitVec.ofNat 64 last]
  let v := words.foldl sipWord [k0 ^^^ 0x736f6d6570736575, k1 ^^^ 0x646f72616e646f6d, k0 ^^^ 0x6c7967656e657261,
    k1 ^^^ 0x7465646279746573]
  match v with
  | [a, b, c, d] => (sipRound (sipRound (sipRound (sipRound [a, b, c ^^^ 0xff, d])))).foldl (· ^^^ ·) 0
  | _ => 0

/-! ### Philox4x32-10 -/

/-- One round: counter of four words, key of two. -/
def philoxRound (c : List Word) (k : Word × Word) : List Word :=
  match c with
  | [c0, c1, c2, c3] =>
    let p0 := 0xD2511F53 * c0.toNat
    let p1 := 0xCD9E8D57 * c2.toNat
    [BitVec.ofNat 32 (p1 / 2 ^ 32) ^^^ c1 ^^^ k.1, BitVec.ofNat 32 p1, BitVec.ofNat 32 (p0 / 2 ^ 32) ^^^ c3 ^^^ k.2,
      BitVec.ofNat 32 p0]
  | l => l

/-- Rounds, the key raised by the Weyl constants between them. -/
def philoxRounds : Nat → List Word → Word × Word → List Word
  | 0, c, _ => c
  | n + 1, c, k => philoxRounds n (philoxRound c k) (k.1 + 0x9E3779B9, k.2 + 0xBB67AE85)

/-- Philox4x32-10. -/
def philox (counter : List Word) (key : Word × Word) : List Word := philoxRounds 10 counter key

/-! ### Checksums -/

/-- A CRC register of width w taken over one byte, most significant bit first. -/
def crcByteMsb {w : Nat} (poly : BitVec w) (crc : BitVec w) (b : Byte) : BitVec w :=
  (countFrom 0 8).foldl (fun c _ => if c.msb then c <<< 1 ^^^ poly else c <<< 1)
    (crc ^^^ BitVec.ofNat w (b.toNat * 2 ^ (w - 8)))

/-- CRC-16 of R643: polynomial 0x1021, initial value 0xFFFF, no reflection. -/
def crc16 (l : List Byte) : Half := l.foldl (crcByteMsb 0x1021) 0xFFFF

/-- A reflected CRC-32 register taken over one byte. -/
def crc32Byte (crc : Word) (b : Byte) : Word :=
  (countFrom 0 8).foldl (fun c _ => if c.toNat % 2 = 1 then c >>> 1 ^^^ 0xEDB88320 else c >>> 1)
    (crc ^^^ BitVec.ofNat 32 b.toNat)

/-- CRC-32 of IEEE Std 802.3 (R492). -/
def crc32 (l : List Byte) : Word := ~~~(l.foldl crc32Byte 0xFFFFFFFF)

end Sys2Proof.Machine
end

