-- ==== Sys2Proof/Machine/Ops.lean ====
section
/-! DEFINITION. Machine/Ops.lean: the named operations that meanings share: Ledger values and counters, events, MSI-X,
NOTIFY, changes of state, free values, memory bytes. -/

namespace Sys2Proof.Machine

/-- A number lies between two bounds. -/
def between (lo v hi : Nat) : Bool := decide (lo ≤ v) && decide (v ≤ hi)

/-- An element put into its place of an ordered list, ahead of its equals. -/
def insertBefore {α : Type} (before : α → α → Bool) (x : α) : List α → List α
  | [] => [x]
  | y :: t => if before y x then y :: insertBefore before x t else x :: y :: t

/-- A list in order; equals stay as they stood. -/
def sortBefore {α : Type} (before : α → α → Bool) (l : List α) : List α := l.foldr (insertBefore before) []

/-! ### Ledger values -/

/-- The key of one element. -/
def ledgerKey (index sub elem : Nat) : Nat := index * 2 ^ 24 + sub * 2 ^ 16 + elem

/-- A listed value, if there is one. -/
def Sparse.find? {α : Type} : Sparse α → Nat → Option α
  | [], _ => none
  | (k, v) :: t, n => if k = n then some v else Sparse.find? t n

/-- The bytes of an element of an entry: 0 where there is no entry. -/
def entryWidth (index sub : Nat) : Nat := ((findEntry index sub).map fun e => e.ty.size).getD 0

/-- The default of an element (R566): the catalogue's, or the fused, factory or per-cell value (R605). -/
def State.ledgerDefault (s : State) (index sub : Nat) : Nat :=
  if index = 0x1000 ∧ sub = 0x04 then s.fuses.serial.toNat
  else if index = 0x1000 ∧ sub = 0x09 then s.fuses.date.toNat
  else if index = 0x1000 ∧ sub = 0x0A then ofBytes s.fuses.serviceKeyHash
  else if index = 0x2000 ∧ sub = 0x01 then s.fuses.vcoreSetPoint.toNat
  else if 0x4000 ≤ index ∧ index ≤ 0x400F ∧ sub = 0x01 then index - 0x4000
  else if index = 0x6800 ∧ sub = 0x12 then s.fuses.endurance.toNat
  else if index = 0x8000 ∧ sub = 0x04 then s.fuses.rollback.toNat
  else if index = 0x9000 ∧ sub = 0x20 then s.fuses.record
  else ((findEntry index sub).map Entry.default).getD 0

/-- The value that the block of an entry holds (R566). -/
def State.led (s : State) (index sub : Nat) (elem : Nat := 0) : Nat :=
  (s.ledger.live.find? (ledgerKey index sub elem)).getD (s.ledgerDefault index sub)

/-- A map of Ledger values with one value set: a default is not listed. -/
def putValue (m : Sparse Nat) (dflt key v : Nat) : Sparse Nat := if v = dflt then m.erase key else m.put key v

/-- The value of an element set in its block. -/
def State.setLed (s : State) (index sub elem v : Nat) : State :=
  { s with ledger := { s.ledger with
      live := putValue s.ledger.live (s.ledgerDefault index sub) (ledgerKey index sub elem) v } }

/-- The value of a persisted element appended to the store in NOR (R577, R578, R650): the record takes the next sequence
number. -/
def State.storeLed (s : State) (index sub elem v : Nat) : State :=
  { s with ledger := { s.ledger with
      store := putValue s.ledger.store (s.ledgerDefault index sub) (ledgerKey index sub elem) v
      fill := s.ledger.fill + 1
      sequence := s.ledger.sequence + 1 } }

/-- A persisted value that the part maintains itself: set and stored (R577; the store follows within 100 ms, log entry
20). -/
def State.setStored (s : State) (index sub elem v : Nat) : State := (s.setLed index sub elem v).storeLed index sub elem v

/-- A sum that a register of w bits holds, or the value a counter past its top holds (log entry 18). -/
def pastTop (w v : Nat) : Nat := if v < 2 ^ w then v else Config.counterPastTop w v % 2 ^ w

/-- A counter entry advanced by k (R565, R575). -/
def State.bump (s : State) (index sub elem k : Nat) : State :=
  if k = 0 then s else s.setLed index sub elem (pastTop (8 * entryWidth index sub) (s.led index sub elem + k))

/-- A persisted counter advanced by k. -/
def State.bumpStored (s : State) (index sub elem k : Nat) : State :=
  s.setStored index sub elem (pastTop (8 * entryWidth index sub) (s.led index sub elem + k))

/-- A maximum entry takes a value (R565). -/
def State.noteMax (s : State) (index sub elem v : Nat) : State :=
  if s.led index sub elem < v then s.setLed index sub elem v else s

/-! ### The state of the device -/

/-- The code of a device state (R97). -/
def DevState.code : DevState → Nat
  | .off => 0
  | .standby => 1
  | .starting => 2
  | .ready => 3
  | .inService => 4
  | .halted => 5
  | .peat => 6

/-- READY or IN_SERVICE: the whole device runs. -/
def State.serving (s : State) : Bool := s.life.state == .ready || s.life.state == .inService

/-- Uhleg answers: its firmware or the recovery path runs (R594), in a state that serves the Ledger (R570). -/
def State.uhlegRuns (s : State) : Bool :=
  (s.uhleg.phase == .firmware || s.uhleg.phase == .recovery) && s.life.state != .off && !s.power.clocksStopped

/-! ### Messages -/

/-- A message leaves the device. -/
def State.emit (s : State) (o : Out) : State := { s with out := o :: s.out }

/-- One byte of the MSI-X table; at reset every vector is masked and the rest is 0 (log entry 15). -/
def State.msixByte (s : State) (i : Nat) : Byte :=
  (s.pcie.msixTable.find? i).getD (if i % 16 = 12 then 1 else 0)

/-- A number of four bytes of the MSI-X table. -/
def State.msixField (s : State) (i : Nat) : Nat := ofBytes ((countFrom i 4).map s.msixByte)

/-- A vector can be sent now (R552). -/
def State.msixOpen (s : State) (v : Nat) : Bool :=
  s.pcie.enabled && s.pcie.up && !s.pcie.d3hot && s.pcie.msixEnable && !s.pcie.functionMask &&
    s.msixField (16 * v + 12) % 2 == 0

/-- A vector is sent, or its pending bit set (R552); an endpoint in reset keeps no bit. -/
def State.msix (s : State) (v : Nat) : State :=
  if s.msixOpen v then
    s.emit (.msix v (s.msixField (16 * v) + s.msixField (16 * v + 4) * 2 ^ 32) (s.msixField (16 * v + 8)))
  else if s.pcie.enabled ∧ v ∉ s.pcie.pendingBits then
    { s with pcie := { s.pcie with pendingBits := v :: s.pcie.pendingBits } }
  else s

/-- Every pending vector that can be sent now is sent (R552). -/
def State.flushMsix (s : State) : State :=
  let send := s.pcie.pendingBits.reverse.filter s.msixOpen
  let kept := s.pcie.pendingBits.filter fun v => !s.msixOpen v
  send.foldl (fun t v => t.msix v) { s with pcie := { s.pcie with pendingBits := kept } }

/-- A source of the cores' interrupt controller becomes pending (R450). -/
def State.interruptCores (s : State) (source : Nat) : State :=
  if source ∈ s.cores.sources then s else { s with cores := { s.cores with sources := source :: s.cores.sources } }

/-- The CAN FD node number (R580). -/
def State.node (s : State) : Nat := 0x10 + s.uhleg.devId.toNat

/-- A frame is sent, unless the controller is bus-off (R579) or Uhleg does not run (R594). -/
def State.sendCan (s : State) (ident : Nat) (data : List Byte) : State :=
  if s.uhlegRuns ∧ s.can.busOff = false then
    (s.emit (.can (BitVec.ofNat 29 ident) data)).bump 0x8000 0x22 0 1
  else s

/-- One byte. -/
def byte (n : Nat) : Byte := BitVec.ofNat 8 n

/-- A NOTIFY frame (R587): kind 1 BOOT, 2 STATE, 3 HALT. -/
def State.notify (s : State) (kind : Nat) : State :=
  let ident := 2 * 2 ^ 24 + s.uhleg.trayId.toNat * 2 ^ 16 + s.node * 2 ^ 8 + s.can.notifyCount.toNat
  let data := [byte kind, byte s.life.state.code] ++ toBytes 2 (s.led 0x1100 0x08) ++
    List.replicate 4 0 ++ toBytes 8 s.time.toNat
  if s.uhlegRuns ∧ s.can.busOff = false then
    { s.sendCan ident data with can := { s.can with notifyCount := s.can.notifyCount + 1 } }
  else s

/-! ### Events -/

/-- The 14 data bytes of a record (R643). -/
def eventData (l : List Byte) : List Byte := padTo 0 14 l

/-- Severity INFO (R643). -/
def sevInfo : Nat := 0
/-- Severity WARNING (R643). -/
def sevWarning : Nat := 1
/-- Severity HALT (R643). -/
def sevHalt : Nat := 2

/-- A front without its oldest INFO record; none when it holds none (R646). -/
def dropInfo : List LogRec → Option (List LogRec)
  | [] => none
  | r :: t => if r.severity = sevInfo then some t else (dropInfo t).map (r :: ·)

/-- A record dropped (R646). -/
def State.lose (s : State) : State :=
  { s.bump 0x8000 0x14 0 1 with log := { s.log with dropped := s.log.dropped + 1 } }

/-- The log front replaced. -/
def State.withFront (s : State) (l : List LogRec) : State := { s with log := { s.log with front := l } }

/-- A record enters the log front, or one is dropped (R646, R667). The front holds 256 records, 8 places of them kept
for HALT records; its first record is the one that Uhleg is writing. -/
def State.enterFront (s : State) (r : LogRec) : State :=
  let front := s.log.front
  let others := (front.filter fun x => x.severity ≠ sevHalt).length
  if r.severity = sevHalt then
    if front.length < 256 then s.withFront (front ++ [r])
    else
      match front.reverse.span fun x => x.severity ≠ sevHalt with
      | (newer, _ :: older) => s.lose.withFront (older.reverse ++ newer.reverse ++ [r])
      | (_, []) => s.lose
  else if others < 248 ∧ front.length < 256 then s.withFront (front ++ [r])
  else if r.severity = sevInfo then s.lose
  else
    match front with
    | [] => s.lose
    | w :: t =>
      match dropInfo t with
      | some t' => s.lose.withFront (w :: t' ++ [r])
      | none => s.lose

/-- A record for an event raised now (R643). -/
def State.record (s : State) (code severity : Nat) (data : List Byte) : LogRec :=
  ⟨s.time, BitVec.ofNat 16 code, severity, s.life.state.code, eventData data⟩

/-- A WARNING is counted and sends vector 5, whether or not its record enters the front (R644). -/
def State.warn (s : State) : State := (s.bump 0x8000 0x13 0 1).msix 5

/-- An event is raised (R643, R644). -/
def State.raise (s : State) (code severity : Nat) (data : List Byte) : State :=
  let s' := s.enterFront (s.record code severity data)
  if severity = sevWarning then s'.warn else s'

/-- The device state changes (R98): STATE_CHANGE except into HALTED, raised in the new state (log entry 21), NOTIFY, and
vector 4 (R552, R587, R647). -/
def State.enterState (s : State) (d : DevState) (notifyKind : Nat := 2) : State :=
  if s.life.state = d then s
  else
    let s1 := { s with life := { s.life with state := d } }
    let s2 := if d = .halted then s1 else s1.raise 0x0102 sevInfo [byte s.life.state.code, byte d.code]
    (s2.notify notifyKind).msix 4

/-! ### Mesh complete -/

/-- The state of a port. -/
def State.port (s : State) (p : Nat) : Port := s.ports.get Port.blank p

/-- What a port keeps beside its counters. -/
def State.link (s : State) (p : Nat) : PortWork := s.links.get PortWork.blank p

/-- The required ports that are not UP, as a mask (R120). -/
def State.missingPorts (s : State) : Nat :=
  ((countFrom 0 8).filter fun p => bit (s.led 0x1100 0x12) p && (s.port p).state != .up).foldl (fun a p => a + 2 ^ p) 0

/-- Stage 10 of a start, READY or IN_SERVICE. -/
def State.meshState (s : State) : Bool := s.serving || (s.life.state == .starting && s.life.stage == 10)

/-- 0x1100:14 Mesh complete (R120). -/
def State.meshComplete (s : State) : Bool := s.meshState && s.missingPorts == 0

/-- What follows a change that may have changed Mesh complete from `before` (R120, R552, R647): vector 4 when it
changed, and MESH_INCOMPLETE when it fell for a reason that raises it. -/
def State.meshChanged (s : State) (before raises : Bool) : State :=
  if s.meshComplete = before then s
  else
    let s := s.msix 4
    if before ∧ raises then s.raise 0x0107 sevWarning [byte s.missingPorts] else s

/-! ### Free values -/

/-- A draw of a free value: the number of the draw, and the state with the draw counted (log entry 17). -/
def State.draw (s : State) : Nat × State := (s.fresh, { s with fresh := s.fresh + 1 })

/-! ### Memory bytes -/

/-- Bytes of the stacked memory at a local address; what nothing has written reads 0 (R160). -/
def State.memRead (s : State) (a n : Nat) : List Byte := Sparse.read 0 s.mem a n

/-- Bytes written to the stacked memory's coherent image. -/
def State.memWrite (s : State) (a : Nat) (l : List Byte) : State := { s with mem := Sparse.write 0 s.mem a l }

/-- A number of n bytes in memory (R8). -/
def State.memNat (s : State) (a n : Nat) : Nat := ofBytes (s.memRead a n)

end Sys2Proof.Machine
end

