-- ==== Sys2Proof/Machine/Fec.lean ====
section
/-! DEFINITION. Machine/Fec.lean: the coding of an Aelis direction (R491 to R494): the field and the RS(544,514) code, the
Gray-coded PAM4 levels, and how a frame lies on wavelengths and fibers. R491 names IEEE Std 802.3 for the field, the code's
generator, the bit order and the Gray map; the model takes them from that standard (PRESUMED, log entry 146). -/

namespace Sys2Proof.Machine

/-! ### The field GF(2^10) -/

/-- x times an element, modulo x^10 + x^3 + 1. -/
def fieldDouble (a : Nat) : Nat := if a < 512 then 2 * a else (2 * a) ^^^ 0x409

/-- The products of the low bits of b, from bit n − 1 down. -/
def fieldTimes (a b : Nat) : Nat → Nat → Nat
  | 0, acc => acc
  | n + 1, acc => fieldTimes a b n (if b.testBit n then fieldDouble acc ^^^ a else fieldDouble acc)

/-- The product of two elements. -/
def fieldMul (a b : Nat) : Nat := if a = 0 ∨ b = 0 then 0 else fieldTimes a b 10 0

/-- The k-th power of the primitive element x. -/
def fieldAlpha : Nat → Nat
  | 0 => 1
  | k + 1 => fieldDouble (fieldAlpha k)

/-- A power of an element. -/
def fieldPow (a : Nat) : Nat → Nat
  | 0 => 1
  | n + 1 => fieldMul a (fieldPow a n)

/-- The inverse of an element, its 1,022nd power, by squarings: 1,022 = 2 + 4 + … + 512. -/
def fieldInv (a : Nat) : Nat :=
  ((countFrom 0 9).foldl (fun (r : Nat × Nat) _ =>
    let sq := fieldMul r.1 r.1
    (sq, fieldMul r.2 sq)) (a, 1)).2

/-- The sum of two polynomials, coefficients from the constant term on. -/
def polyAdd : List Nat → List Nat → List Nat
  | [], q => q
  | p, [] => p
  | a :: p, b :: q => (a ^^^ b) :: polyAdd p q

/-- A polynomial times an element. -/
def polyScale (c : Nat) (p : List Nat) : List Nat := p.map (fieldMul c)

/-- The product of two polynomials. -/
def polyMul : List Nat → List Nat → List Nat
  | [], _ => []
  | a :: p, q => polyAdd (polyScale a q) (0 :: polyMul p q)

/-- The value of a polynomial. -/
def polyAt (p : List Nat) (x : Nat) : Nat := p.foldr (fun c acc => c ^^^ fieldMul x acc) 0

/-! ### RS(544,514) -/

/-- The generator, whose roots are the powers 0 to 29 of x. -/
def rsGenerator : List Nat := (countFrom 0 30).foldl (fun g j => polyMul g [fieldAlpha j, 1]) [1]

/-- The 30 check symbols of 514 data symbols in the order in which they are sent: the remainder of the division by the generator, its
highest coefficient first. -/
def rsCheck (data : List Nat) : List Nat :=
  let g := (rsGenerator.take 30).reverse
  data.foldl (fun (r : List Nat) d =>
    let f := d ^^^ r.headD 0
    polyAdd (r.drop 1 ++ [0]) (polyScale f g)) (List.replicate 30 0)

/-- A codeword: 514 data symbols and 30 check symbols. -/
def rsEncode (data : List Nat) : List Nat := data ++ rsCheck data

/-- The 30 syndromes of a received word. -/
def rsSyndromes (word : List Nat) : List Nat :=
  (countFrom 0 30).map fun j =>
    let x := fieldAlpha j
    word.foldl (fun acc c => fieldMul acc x ^^^ c) 0

/-- The search for the shortest locator that the syndromes allow: the locator, the one before its last change of length with the
discrepancy then and the steps since, and the length. -/
structure LocatorSearch where
  now : List Nat
  before : List Nat
  gap : Nat
  since : Nat
  length : Nat

/-- One syndrome is taken in. -/
def LocatorSearch.take (k : LocatorSearch) (synd : List Nat) (n : Nat) : LocatorSearch :=
  let gap := (countFrom 0 (k.length + 1)).foldl (fun d i => d ^^^ fieldMul (k.now.getD i 0) (synd.getD (n - i) 0)) 0
  if gap = 0 then { k with since := k.since + 1 }
  else
    let change := List.replicate k.since 0 ++ polyScale (fieldMul gap (fieldInv k.gap)) k.before
    let next := polyAdd k.now change
    if 2 * k.length ≤ n then ⟨next, k.now, gap, 1, n + 1 - k.length⟩
    else { k with now := next, since := k.since + 1 }

/-- The locator of the errors of a received word. -/
def rsLocator (synd : List Nat) : LocatorSearch :=
  (countFrom 0 30).foldl (fun k n => k.take synd n) ⟨[1], [1], 1, 1, 0⟩

/-- The derivative of a polynomial in characteristic 2. -/
def polyDerivative (p : List Nat) : List Nat :=
  ((p.drop 1).zip (countFrom 0 p.length)).map fun x => if x.2 % 2 = 0 then x.1 else 0

/-- A received word with its errors at the roots of a locator corrected: the word, and how many symbols changed. -/
def rsRepair (word synd locator : List Nat) : List Nat × Nat :=
  let omega := (polyMul synd locator).take 30
  let slope := polyDerivative locator
  let r := word.foldr (fun c (r : List Nat × Nat × Nat × Nat) =>
    -- r holds the symbols after c, the count of errors, and the power of x of c's place with its inverse
    let (done, errors, x, y) := r
    let e := if polyAt locator y = 0 then fieldMul x (fieldMul (polyAt omega y) (fieldInv (polyAt slope y))) else 0
    ((c ^^^ e) :: done, errors + (e != 0).toNat, fieldDouble x, fieldMul y 0x204)) ([], 0, 1, 1)
  (r.1, r.2.1)

/-- A received word decoded: the codeword and how many symbols were corrected, at most 15; none where the word is uncorrectable. -/
def rsDecode (word : List Nat) : Option (List Nat × Nat) :=
  let synd := rsSyndromes word
  if synd.all (· == 0) then some (word, 0)
  else
    let k := rsLocator synd
    if 15 < k.length then none
    else
      let r := rsRepair word synd k.now
      if r.2 = k.length ∧ (rsSyndromes r.1).all (· == 0) then some r else none

/-! ### Symbols of a frame -/

/-- Numbers of ten bits, from bit 0 of a number up. -/
def symbolsOf (v n : Nat) : List Nat := (countFrom 0 n).map fun i => bits v (10 * i) 10

/-- The number that symbols spell. -/
def ofSymbols (l : List Nat) : Nat := l.foldr (fun c acc => c + 1024 * acc) 0

/-- The 40 marker bits of a frame (R492). -/
def frameMarker (counter : Byte) (crc : Word) : Nat := counter.toNat + crc.toNat * 2 ^ 8

/-- The data symbols of the two codewords of a frame (R492). -/
def frameData (counter : Byte) (crc : Word) (bytes : List Byte) : List (List Nat) :=
  let m := frameMarker counter crc
  [symbolsOf (bits m 0 20) 2 ++ symbolsOf (ofBytes (bytes.take 640)) 512,
    symbolsOf (bits m 20 20) 2 ++ symbolsOf (ofBytes (bytes.drop 640)) 512]

/-! ### Levels and lanes -/

/-- Two bits as a Gray-coded PAM4 level, the first bit the one sent first: 00, 01, 11, 10 are levels 0 to 3. -/
def pamLevel (first second : Bool) : Fin 4 :=
  match first, second with
  | false, false => 0
  | false, true => 1
  | true, true => 2
  | true, false => 3

/-- The five levels of a symbol, bit 0 first. -/
def symbolLevels (c : Nat) : List (Fin 4) := (countFrom 0 5).map fun i => pamLevel (c.testBit (2 * i)) (c.testBit (2 * i + 1))

/-- The symbol that five levels spell. -/
def levelsSymbol (l : List (Fin 4)) : Nat :=
  l.foldr (fun v acc => (decide (2 ≤ v.val)).toNat + 2 * (v.val == 1 || v.val == 2).toNat + 4 * acc) 0

/-- A codeword on the 16 fibers of its wavelength (R493): symbol j on fiber j mod 16. -/
def codewordFibers (word : List Nat) : List (List (Fin 4)) :=
  (countFrom 0 16).map fun f => (countFrom 0 34).flatMap fun k => symbolLevels (word.getD (16 * k + f) 0)

/-- The word that 16 fibers carry. -/
def fibersCodeword (fibers : List (List (Fin 4))) : List Nat :=
  let lanes := fibers.map fun l => (chunks 5 l).map levelsSymbol
  (countFrom 0 544).map fun j => ((lanes.getD (j % 16) []).getD (j / 16) 0)

/-- What leaves a port for frame f (R492, R493): two codewords, on wavelengths 0 and 1 for an even frame, 2 and 3 for an odd one. -/
def frameLight (port : PortId) (f : Nat) (bytes : List Byte) : List Out :=
  ((frameData (byte f) (crc32 bytes) bytes).zip (countFrom (2 * (f % 2)) 2)).map fun x =>
    Out.light port (Fin.ofNat 4 x.2) (codewordFibers (rsEncode x.1))

/-- A received frame (R492, R494): the symbols corrected, and the frame's counter, CRC and flit bytes, unless a codeword is
uncorrectable. -/
def receivedFrame (first second : List (List (Fin 4))) : Nat × Option (Byte × Word × List Byte) :=
  let a := rsDecode (fibersCodeword first)
  let b := rsDecode (fibersCodeword second)
  let fixed := ((a.map Prod.snd).getD 0) + ((b.map Prod.snd).getD 0)
  match a, b with
  | some (u, _), some (v, _) =>
    let m := ofSymbols (u.take 2) + ofSymbols (v.take 2) * 2 ^ 20
    let bytes (w : List Nat) : List Byte := toBytes 640 (ofSymbols ((w.drop 2).take 512))
    (fixed, some (byte m, BitVec.ofNat 32 (m / 2 ^ 8), bytes u ++ bytes v))
  | _, _ => (fixed, none)

end Sys2Proof.Machine
end

