-- ==== Sys2Proof/Machine/Flits.lean ====
section
/-! DEFINITION. Machine/Flits.lean: what an Aelis port sends: flits, SKIP slots, frames with their markers, the replay
buffer and the credits (R492, R496 to R502). -/

namespace Sys2Proof.Machine

/-- The four bytes of a flit header (R496). -/
def flitHeader (seq ack : Nat) (nak : Bool) (kind : Nat) : List Byte :=
  toBytes 4 (seq % 4096 + ack % 4096 * 2 ^ 12 + nak.toNat * 2 ^ 24 + kind % 4 * 2 ^ 25)

/-- One flit put into the next slot: a REQ (1) or RSP (2) flit takes the next SEQ, a credit and a place in the replay
buffer; a NULL (0) or CTRL (3) flit takes none (R497, R499). -/
def Port.putFlit (p : Port) (kind : Nat) (body : List Byte) : Port × List Byte :=
  let flit := flitHeader p.nextSeq (p.expected + 4095) p.nakOwed kind ++ padTo 0 252 body
  let p := { p with slot := p.slot + 1, nakOwed := false }
  if kind = 1 ∨ kind = 2 then
    ({ p with nextSeq := (p.nextSeq + 1) % 4096, replay := p.replay ++ [(p.nextSeq, flit)] }, flit)
  else (p, flit)

/-- The body of a SKIP flit (R497). -/
def Port.skipBody (p : Port) : List Byte :=
  [1, 0, 0, 0] ++ toBytes 4 (p.madeReq % 2 ^ 32) ++ toBytes 4 (p.madeRsp % 2 ^ 32)

/-- The SKIP that slot n must carry when n mod 256 = 255 (R497). -/
def Port.skipIfDue (p : Port) : Port × List (List Byte) :=
  if p.slot % 256 = 255 then
    let r := p.putFlit 3 p.skipBody
    (r.1, [r.2])
  else (p, [])

/-- Flits put into slots, SKIPs between them where they fall due (R528). -/
def Port.putFlits (p : Port) : List (Nat × List Byte) → Port × List (List Byte)
  | [] => (p, [])
  | (kind, body) :: t =>
    let a := p.skipIfDue
    let b := a.1.putFlit kind body
    let c := Port.putFlits b.1 t
    (c.1, a.2 ++ [b.2] ++ c.2)

/-- Flits of the replay buffer sent again, unchanged, each in a slot of its own (R499). -/
def Port.resend (p : Port) : List (List Byte) → Port × List (List Byte)
  | [] => (p, [])
  | f :: t =>
    let a := p.skipIfDue
    let c := Port.resend { a.1 with slot := a.1.slot + 1 } t
    (c.1, a.2 ++ [f] ++ c.2)

/-- NULL flits up to the end of the frame (R492). -/
def Port.fillFrame (p : Port) : Nat → Port × List (List Byte)
  | 0 => (p, [])
  | n + 1 =>
    if p.slot % 5 = 0 then (p, [])
    else
      let a := p.putFlits [(0, [])]
      let c := Port.fillFrame a.1 n
      (c.1, a.2 ++ c.2)

/-- The light of the frames of a run of flits that starts at a frame boundary (R492, R493). -/
def frameOuts (port : PortId) (frame : Nat) (flits : List (List Byte)) : List Out :=
  ((chunks 5 flits).zip (countFrom frame (flits.length / 5 + 1))).flatMap fun x => frameLight port x.2 x.1.flatten

/-- The port replaced. -/
def State.setPort (s : State) (p : Nat) (x : Port) : State := { s with ports := s.ports.set Port.blank p x }

/-- What a port keeps beside its counters replaced. -/
def State.setLink (s : State) (p : Nat) (x : PortWork) : State := { s with links := s.links.set PortWork.blank p x }

/-- Flits leave the port: padded to whole frames and sent. -/
def State.sendSlots (s : State) (port : PortId) (p : Port) (flits : List (List Byte)) : State :=
  let f := p.fillFrame 8
  let all := flits ++ f.2
  let outs := frameOuts port p.frames all
  { (s.setPort port { f.1 with frames := p.frames + all.length / 5 }) with out := outs.reverse ++ s.out }

/-- A control flit is sent (R497). -/
def State.sendControl (s : State) (port : PortId) (body : List Byte) : State :=
  let r := (s.port port).putFlits [(3, body)]
  s.sendSlots port r.1 r.2

/-! ### Credits -/

/-- A slot taken for a channel (R502): a shared one when one is free, else one of the channel's reserve; none when
neither is free. -/
def Port.takeSlot (p : Port) (kind : Nat) : Option Port :=
  let usedReq := p.usedReq - p.freedReq
  let usedRsp := p.usedRsp - p.freedRsp
  let shared := usedReq - p.reserveReq + (usedRsp - p.reserveRsp)
  if shared < 3968 then
    some (if kind = 1 then { p with usedReq := p.usedReq + 1 } else { p with usedRsp := p.usedRsp + 1 })
  else if kind = 1 ∧ p.reserveReq < 64 then
    some { p with usedReq := p.usedReq + 1, reserveReq := p.reserveReq + 1 }
  else if kind = 2 ∧ p.reserveRsp < 64 then
    some { p with usedRsp := p.usedRsp + 1, reserveRsp := p.reserveRsp + 1 }
  else none

/-- The bytes of a channel's next flit (R504): transactions back to back, as many as `room` takes; and what waits still. -/
def packBody (kind : Nat) : Nat → List Waiting → List Byte × List Waiting
  | _, [] => ([], [])
  | room, w :: t =>
    if w.kind ≠ kind then
      let r := packBody kind room t
      (r.1, w :: r.2)
    else if room < w.bytes.length then (w.bytes.take room, { w with bytes := w.bytes.drop room, begun := w.begun || room != 0 } :: t)
    else
      let r := packBody kind (room - w.bytes.length) t
      (w.bytes ++ r.1, r.2)

/-- The next flit that can be sent: of the channel whose transaction has waited longest, or of the other where that one has no slot
(R502). -/
def Port.nextFlit (p : Port) : Option (Port × Nat × List Byte) :=
  let send (kind : Nat) : Option (Port × Nat × List Byte) :=
    if p.waiting.any fun w => w.kind == kind then
      (p.takeSlot kind).map fun q =>
        let r := packBody kind 252 p.waiting
        ({ q with waiting := r.2 }, kind, r.1)
    else none
  match p.waiting with
  | [] => none
  | w :: _ => (send w.kind).or (send (3 - w.kind))

/-- The flits that can be sent now, at most n (R499, R502). -/
def takeSendable : Nat → Port → Port × List (Nat × List Byte)
  | 0, p => (p, [])
  | n + 1, p =>
    match p.nextFlit with
    | none => (p, [])
    | some (q, flit) =>
      let r := takeSendable n q
      (r.1, flit :: r.2)

/-- Everything that waits and can be sent is sent; nothing is when 4,096 flits are unacknowledged (R499, R502). -/
def State.pump (s : State) (port : PortId) : State :=
  let p := s.port port
  let r := takeSendable (4096 - p.replay.length) p
  match r.2 with
  | [] => s
  | go =>
    let sent := r.1.putFlits go
    (s.sendSlots port sent.1 sent.2).bump 0x7000 0x30 port (252 * go.length)

/-- A transaction handed to a port for a channel, and sent as credits allow (R502, R504); a flit that leaves with nothing more waiting is
filled up with PAD (log entry 22). -/
def State.sendTransaction (s : State) (port : PortId) (kind : Nat) (tag : Option Nat) (bytes : List Byte) : State :=
  let p := s.port port
  if p.state = .up then (s.setPort port { p with waiting := p.waiting ++ [⟨kind, tag, false, bytes⟩] }).pump port else s

end Sys2Proof.Machine
end

