-- ==== Sys2Proof/Machine/Life.lean ====
section
/-! DEFINITION. Machine/Life.lean: power, clocks, temperature, the device states and halts (chapters 03, 04 and 19): what
the commands of that family share. -/

namespace Sys2Proof.Machine

/-! ### Rails -/

/-- The row of a rail (R74). -/
def railRow : Rail → Nat
  | .vcore => 0
  | .vmem => 1
  | .vlnk => 2
  | .vio18 => 3
  | .vaux33 => 4
  | .vprg => 5

/-- The mark of a rail. -/
def RailMarks.get (m : RailMarks) : Rail → Bool
  | .vcore => m.vcore
  | .vmem => m.vmem
  | .vlnk => m.vlnk
  | .vio18 => m.vio18
  | .vaux33 => m.vaux33
  | .vprg => m.vprg

/-- The marks with one rail's set. -/
def RailMarks.set (m : RailMarks) (b : Bool) : Rail → RailMarks
  | .vcore => { m with vcore := b }
  | .vmem => { m with vmem := b }
  | .vlnk => { m with vlnk := b }
  | .vio18 => { m with vio18 := b }
  | .vaux33 => { m with vaux33 := b }
  | .vprg => { m with vprg := b }

/-- The window of a rail at the lands, mV (R74). -/
def State.railWindow (s : State) : Rail → Int × Int
  | .vcore => ((s.fuses.vcoreSetPoint.toNat : Int) - 15, s.fuses.vcoreSetPoint.toNat + 15)
  | .vmem => (1067, 1133)
  | .vlnk => (776, 824)
  | .vio18 => (1710, 1890)
  | .vaux33 => (3135, 3465)
  | .vprg => (2450, 2550)

/-- The gain trim of a rail's monitor, in 1/32,768 (0x9000:10). -/
def State.railTrim (s : State) (r : Rail) : Nat := s.led 0x9000 0x10 (railRow r)

/-- What a rail's monitor reports for a voltage or a current (R628): scaled by the trim and rounded (R45). -/
def State.railReading (s : State) (r : Rail) (v : Nat) : Nat := shiftRne (v * s.railTrim r) 15

/-- The trimmed voltage that a rail reports and its comparators judge (R77, R628), in mV. -/
def State.trimmed (s : State) (r : Rail) (mv : Int) : Int :=
  if mv < 0 then -(s.railReading r mv.natAbs : Int) else s.railReading r mv.natAbs

/-- A voltage lies in a rail's window as the comparators judge it (R77, R628). -/
def State.inWindow (s : State) (r : Rail) (mv : Int) : Bool :=
  decide ((s.railWindow r).1 ≤ s.trimmed r mv) && decide (s.trimmed r mv ≤ (s.railWindow r).2)

/-- A voltage lies below a rail's window. -/
def State.belowWindow (s : State) (r : Rail) (mv : Int) : Bool := decide (s.trimmed r mv < (s.railWindow r).1)

/-- The main rails that precede a rail in the main power-up table (R79, R80). -/
def railsBefore : Rail → List Rail
  | .vcore => [.vio18]
  | .vmem => [.vio18, .vcore]
  | .vlnk => [.vio18, .vcore, .vmem]
  | _ => []

/-- The four rails whose order is checked (R80), which are the main rails of R77. -/
def mainRails : List Rail := [.vcore, .vmem, .vlnk, .vio18]

/-- Every main rail but VPRG is in its window. -/
def State.mainPower (s : State) : Bool := mainRails.all s.power.inWindow.get

/-- A power-sequencing event (R80): counted, logged, and RESET_N blocked. -/
def State.sequenceEvent (s : State) (row : Nat) : State :=
  let s := { s with power := { s.power with sequenceBlock := some row } }
  (s.bump 0x2000 0x14 0 1).raise 0x0202 sevWarning [byte row]

/-! ### Hot refresh and memory -/

/-- The F32 of a temperature in 1/400 °C. -/
def tempF32 (t : Int) : F32 := ratioF32 t 400

/-- The bytes of an F32. -/
def f32Bytes (w : F32) : List Byte := toBytes 4 w.toNat

/-- The hottest of some samples, the lowest sensor among equals. -/
def hottest : List (Nat × Int) → Option (Nat × Int)
  | [] => none
  | x :: t =>
    match hottest t with
    | none => some x
    | some y => if y.2 > x.2 ∨ (y.2 = x.2 ∧ y.1 < x.1) then some y else some x

/-- Hot refresh begins (R87): 0x2100:10 reads 1, the entry is counted and logged. -/
def State.hotOn (s : State) (sensor : Nat) (sample : Int) : State :=
  let s := { s with sensors := { s.sensors with hot := true } }
  (s.bump 0x2100 0x11 0 1).raise 0x0205 sevInfo ([byte sensor, 0] ++ f32Bytes (tempF32 sample))

/-- Hot refresh ends, by the clearing round or by the stop of refresh (R87). -/
def State.hotOff (s : State) (stopped : Bool) : State :=
  let top := ((hottest s.sensors.latest).map Prod.snd).getD 0
  let s := { s with sensors := { s.sensors with hot := false } }
  s.raise 0x0206 sevInfo ([0, byte stopped.toNat] ++ f32Bytes (tempF32 top))

/-- The memory stops being refreshed (R87). -/
def State.stopRefresh (s : State) : State :=
  let s := if s.sensors.hot then s.hotOff true else s
  { s with sensors := { s.sensors with refreshing := false } }

/-- Refresh begins in stage 5, in hot refresh when a DRAM layer sample of the latest complete round is above 85 °C (R87,
R94). -/
def State.startRefresh (s : State) : State :=
  let s := { s with sensors := { s.sensors with refreshing := true } }
  match hottest s.sensors.latest with
  | some (n, t) => if t > 34000 then s.hotOn n t else s
  | none => s

/-! ### Ports -/

/-- A port leaves UP (R519): its cause is recorded, counted and logged. -/
def State.portGoesDown (s : State) (p : PortId) (cause : Nat) : State :=
  let s := s.setPort p { Port.blank with state := .down }
  let s := (s.setLed 0x7000 0x23 p cause).bump 0x7000 0x27 p 1
  s.raise 0x0601 sevWarning ([byte p, byte cause, 0, 0] ++ toBytes 4 (s.led 0x7000 0x04 p))

/-- Every UP port sends a GOODBYE with the reason given, or none, and goes down with cause LOCAL; what was outstanding
ends without a report (R520, R532). -/
def State.stopPorts (s : State) (goodbye : Option Nat) : State :=
  let s := (List.finRange 8).foldl (fun s p =>
    if (s.port p).state = .up then
      let s := match goodbye with
        | some r => s.sendControl p [3, byte r]
        | none => s
      s.portGoesDown p 7
    else s) s
  { s with ports := s.ports.map (fun x => (x.1, { Port.blank with state := if x.2.state = .up then .down else x.2.state }))
           links := [] }

/-! ### PCIe link -/

/-- The data link goes from up to down, of whatever cause (R538, R554): configuration space is reset, the event is
counted and logged, and its vector waits. -/
def State.linkLost (s : State) : State :=
  if s.pcie.up then
    let was := [byte s.pcie.speed.toNat, byte s.pcie.width.toNat]
    let s := { s with pcie := { s.pcie with
        up := false, speed := 0, width := 0, flit := false, d3hot := false, msixEnable := false, functionMask := false
        bar2Log := 30, msixTable := [], aerStatus := 0 } }
    (s.bump 0x7800 0x10 0 1).raise 0x0604 sevWarning was
  else s

/-! ### Reset of the main domain -/

/-- An index whose block lies in the main domain. -/
def mainIndex (index : Nat) : Bool := decide (0x3000 ≤ index) && decide (index < 0x8000)

/-- The live values without those of the volatile entries that a test picks. -/
def dropVolatile (pick : Nat → Nat → Bool) (m : Sparse Nat) : Sparse Nat :=
  m.filter fun x =>
    let index := x.1 / 2 ^ 24
    let sub := x.1 / 2 ^ 16 % 2 ^ 8
    !(pick index sub && ((findEntry index sub).map fun e => !e.persisted).getD true)

/-- Programming stops at once, and the group it was writing stays INVALID (R394). -/
def State.abandonProgramming (s : State) : State :=
  (countFrom 0 256).foldl (fun (s : State) i => if s.led 0x6800 0x10 i = 2 then s.setLed 0x6800 0x10 i 0 else s) s

/-- The main domain stops (R82, R87, R99, R108): its clocks, the refresh of the memory, and every block but the endpoint; the
Ledger and the serving registers read as they did. The times of corrections are kept, since R154 counts 24 hours whatever
happens within them (DESIGN CHOICE, log entry 143). -/
def State.mainStop (s : State) : State :=
  let s := s.stopRefresh.abandonProgramming
  { s with
    power := { s.power with mainClocks := false, laneLock := 0 }
    memctl := { MemoryCtl.blank with corrected := s.memctl.corrected }
    cache := ⟨[], []⟩
    reed := { s.reed with
      acc := [], slotQueue := [], ops := [], lastFrame := none
      health := (s.reed.health.filter fun x => x.2.passed).map fun x => (x.1, { ReedHealth.blank with passed := true }) }
    front := .blank
    runtime := .blank
    tree := .blank
    cores := .blank
    links := []
    corePort := .blank }

/-- The FRAME_SYNC count and time, which keep their values until the next start resets them (R372). -/
def frameEntry (index sub : Nat) : Bool := index == 0x6800 && (sub == 0x40 || sub == 0x41)

/-- The main domain is put in reset (R97, R103, R570): every block but the endpoint is left as a start finds it, and its
volatile entries read their defaults. Reed weights stay (R103); pending MSI-X bits do not (R552). -/
def State.mainReset (s : State) : State :=
  let s := s.mainStop
  { s with
    ledger := { s.ledger with live := dropVolatile (fun i b => mainIndex i && i != 0x7800 && !frameEntry i b) s.ledger.live }
    serve := .blank
    pcie := { s.pcie with pendingBits := [] }
    ports := [] }

/-- The endpoint is put in reset: the link goes down, and no pending bit survives (R552, R681). -/
def State.endpointReset (s : State) : State :=
  let s := s.linkLost
  { s with
    pcie := .blank
    ledger := { s.ledger with live := dropVolatile (fun i _ => i == 0x7800) s.ledger.live } }

/-! ### PEAT -/

/-- Every stored value is applied to its block (R101 stage 3, R566, R577). -/
def applyStore (live : Sparse Nat) (store : Sparse Nat) : Sparse Nat :=
  store.foldl (fun (m : Sparse Nat) x => m.put x.1 x.2) live

/-- A start-failure record (R107). -/
def failureRecord (reason stage detail : Nat) : Nat := reason % 256 + stage % 256 * 2 ^ 8 + detail % 2 ^ 16 * 2 ^ 16

/-- The failure of stages 1 to 4 run in PEAT: stage 1 fails itself where a power-sequencing event is recorded (R101,
R107), and what the other stages find comes with the command. -/
def State.peatFailure (s : State) (failure : Option Word) : Option Word :=
  match s.power.sequenceBlock with
  | some row => some (BitVec.ofNat 32 (failureRecord 0x02 1 row))
  | none => failure

/-- Stages 1 to 4 run once in PEAT, when the main rails are in window and PERST_N is released (R115): stage 3 applies the
persisted values to the blocks of the main domain, those of the management side being in use since the boot (R577); stage 4
enables the endpoint; a failure leaves the endpoint down and is logged. -/
def State.peatEndpoint (s : State) (failure : Option Word) : State :=
  if s.life.state = .peat ∧ s.mainPower ∧ s.life.perstHigh ∧ s.life.peatTried = false ∧ s.pcie.enabled = false then
    let s := { s with life := { s.life with peatTried := true } }
    match s.peatFailure failure with
    | some f => s.raise 0x0108 sevWarning (toBytes 4 f.toNat)
    | none => { s with
        pcie := { s.pcie with enabled := true }
        ledger := { s.ledger with
          live := applyStore s.ledger.live (s.ledger.store.filter fun x => mainIndex (x.1 / 2 ^ 24)) } }
  else s

/-- The device enters PEAT (R99, R114): the main domain in reset, cause, event, the recovery path, and the endpoint under R115. -/
def State.enterPeat (s : State) (cause : Nat) (failure : Option Word) : State :=
  let s := s.setLed 0x1100 0x07 0 cause
  let s := { s with
    life := { s.life with stage := 0, peatTried := false, serveOkLow := true, haltAsserted := false, drain := none }
    uhleg := { s.uhleg with phase := .recovery, trial := false } }
  ((s.mainReset.enterState .peat).raise 0x0104 sevWarning [byte cause]).peatEndpoint failure

/-! ### A failed start -/

/-- The failure of an attempt is recorded (R105): 0x1100:04, the history of three, the event. -/
def State.recordFailure (s : State) (record : Nat) : State :=
  let a := s.led 0x1100 0x05 0
  let b := s.led 0x1100 0x05 1
  let s := s.setStored 0x1100 0x04 0 record
  let s := ((s.setStored 0x1100 0x05 2 b).setStored 0x1100 0x05 1 a).setStored 0x1100 0x05 0 record
  let s := { s with life := { s.life with openAttempt := none } }
  s.raise 0x0103 sevWarning (toBytes 4 record ++ [byte (s.led 0x1100 0x03)])

/-- The update of a part reaches FAILED with a failure code (R647, R652): the bank is the one that was received into. -/
def State.failUpdate (s : State) (part : Nat) (bankB : Bool) (code : Nat) : State :=
  ((s.setLed 0x8000 0x45 0 5).setLed 0x8000 0x46 0 code).raise 0x0703 sevWarning [byte part, byte bankB.toNat, byte code]

/-- A trial of the runtime image failed with the attempt in stage 8 (R664): the previous bank is named again. -/
def State.runtimeFallback (s : State) : State :=
  if s.update.runtimeOnTrial ∧ s.life.stage = 8 then
    let newBank := !s.update.runtimeChosen
    let s := s.setStored 0x8000 0x03 0 (setBit (s.led 0x8000 0x03) 1 newBank)
    let s := { s with update := { s.update with pendingRuntime := false, runtimeOnTrial := false } }
    (s.raise 0x0705 sevWarning [2, byte newBank.toNat, 9]).failUpdate 2 (!newBank) 9
  else { s with update := { s.update with runtimeOnTrial := false } }

/-- The attempt ends as a failed start (R105, R108): recorded with the stage in progress, every main-domain block but
the endpoint stopped, 0x1100:08 and 0x1100:09 set to 0, SERVE_OK low, HALT_N released. The state is left to the caller. -/
def State.endAttempt (s : State) (reason detail : Nat) : State :=
  let s := s.recordFailure (failureRecord reason s.life.stage detail)
  let s := s.runtimeFallback
  let s := (s.stopPorts none).mainStop
  let s := (s.setStored 0x1100 0x08 0 0).setLed 0x1100 0x09 0 0
  { s with life := { s.life with stage := 0, causes := [], haltAsserted := false, serveOkLow := true, drain := none } }

/-- A failed start (R98, R108, R735): HALTED, or PEAT when the start counter reads 3 or more; there stages 1 to 4 come out
as the command says, or as a free value has it (log entry 23). -/
def State.failStart (s : State) (reason detail : Nat) (peat : Option (Option Word) := none) : State :=
  let s := s.endAttempt reason detail
  if s.led 0x1100 0x03 ≥ 3 then
    match peat with
    | some p => s.enterPeat 4 p
    | none => s.draw.2.enterPeat 4 (Config.peatFailure s.draw.1)
  else s.enterState .halted

/-! ### Halts -/

/-- Halt reason codes (R677). -/
def haltMemUncorrectable : Nat := 0x1101
def haltMemRetry : Nat := 0x1102
def haltCell : Nat := 0x1201
def haltCore : Nat := 0x1202
def haltQuiesce : Nat := 0x1301
def haltFrontEnd : Nat := 0x1302
def haltRuntime : Nat := 0x1401
def haltReed : Nat := 0x1501
def haltThermal : Nat := 0x1601
def haltSensor : Nat := 0x1602
def haltRootPll : Nat := 0x1701
def haltLanePll : Nat := 0x1702
def haltCommanded : Nat := 0x1F01
def haltRail : Nat := 0x2001

/-- The number of a unit of the front end: 16 for the Oven, else the cell (R735). -/
def frontEndNumber : FrontEndUnit → Nat
  | .oven => 16
  | .sequencer c => c

/-- The reason code and detail that a class D cause gives a failed start (R735); `unit` is the cell, channel, core, sensor
or port that the table of R735 names. -/
def startReason (code unit : Nat) : Nat × Nat :=
  if code = haltMemUncorrectable ∨ code = haltMemRetry then (0x08, unit)
  else if code = haltCell ∨ code = haltFrontEnd ∨ code = haltQuiesce then (0x09, unit)
  else if code = haltCore then (0x09, 18 + unit)
  else if code = haltRuntime then (0x0B, unit)
  else if code = haltReed then (0x0C, unit)
  else if code = haltThermal then (0x0D, unit)
  else if code = haltSensor then (0x0E, unit)
  else if code = haltRootPll then (0x04, 0)
  else (0x04, 1 + unit)

/-- Memory is left readable by a halt with this reason (R677). -/
def haltReadable (code : Nat) : Bool :=
  code != haltMemRetry && code != haltThermal && code != haltRootPll && code != haltRail

/-- A class D cause is detected (R677, R735): in READY and IN_SERVICE it waits for the halt sequence, in STARTING it fails
the start; in the other states nothing of the main domain runs. -/
def State.classD (s : State) (code rank unit : Nat) (source : List Byte) : State :=
  if s.serving then { s with life := { s.life with causes := s.life.causes ++ [⟨code, rank, source⟩] } }
  else if s.life.state = .starting then s.failStart (startReason code unit).1 (startReason code unit).2
  else s

/-- The class of a halt reason: 2 for a class T reason, else 1 (R647, R677). -/
def haltClass (code : Nat) : Nat := if code ≥ 0x2000 then 2 else 1

/-- A cause precedes another as primary reason (R679). -/
def HaltCause.before (a b : HaltCause) : Bool :=
  if haltClass a.code ≠ haltClass b.code then decide (haltClass a.code > haltClass b.code)
  else decide (a.code < b.code) || (a.code == b.code && decide (a.rank < b.rank))

/-- The primary reason among the causes (R679). -/
def primaryCause : List HaltCause → Option HaltCause
  | [] => none
  | c :: t =>
    match primaryCause t with
    | none => some c
    | some d => if d.before c then some d else some c

/-- The HALT event records of every cause, severities settled (R679): the primary's HALT, every other WARNING. -/
def State.raiseHalts (s : State) (primary : Option HaltCause) : List HaltCause → State
  | [] => s
  | c :: t =>
    let data := toBytes 2 c.code ++ [byte (haltClass c.code), 0] ++ c.source
    if some c = primary then (s.raise 0x0105 sevHalt data).raiseHalts none t
    else (s.raise 0x0105 sevWarning data).raiseHalts primary t

/-- 0x1100:08 and 0x1100:09 are written (R677, R680). -/
def State.writeHaltReason (s : State) (c : HaltCause) : State :=
  (s.setStored 0x1100 0x08 0 c.code).setLed 0x1100 0x09 0 (haltReadable c.code).toNat

/-- What a halt loses at once: queues, bakes, waits and counters, the runtime's data, drains (R29, R122, R448). The
serving registers keep their values (R684). -/
def State.loseWork (s : State) : State :=
  let s := s.abandonProgramming
  { s with
    front := .blank
    reed := { s.reed with ops := [] }
    runtime := .blank
    tree := .blank
    cores := .blank
    life := { s.life with causes := [], drain := none, serveOkLow := true, haltAsserted := true } }

/-- A class T halt (R681): the record, the reason, HALT_N and SERVE_OK, and the whole main domain with the endpoint in
reset; causes of a class D halt not yet at step 2 are recorded beside it (R701). -/
def State.abruptHalt (s : State) (row mv : Nat) : State :=
  let c : HaltCause := ⟨haltRail, row, [byte row, 0] ++ toBytes 2 mv ++ [0, 0, 0, 0]⟩
  let s := s.raiseHalts (some c) (s.life.causes ++ [c])
  let s := s.stopPorts none
  let s := (s.writeHaltReason c).loseWork
  let s := s.mainReset.endpointReset.enterState .halted 3
  let s := s.setLed 0x2000 0x20 0 0
  { s with life := { s.life with heldInReset := true } }

/-! ### Sensors -/

/-- A sensor fails (R93, R642): logged, and a class D cause in STARTING, READY and IN_SERVICE. Cause 1 out of range, 2
missed conversions, 3 self-check. -/
def State.sensorFails (s : State) (sensor cause : Nat) : State :=
  (s.raise 0x0207 sevWarning [byte sensor, byte cause]).classD haltSensor sensor sensor
    [byte sensor, byte cause, 0, 0, 0, 0, 0, 0]

/-- A thermal warning event (R85): counted and logged. -/
def State.thermalWarning (s : State) (sensor : Nat) (sample : Int) : State :=
  (s.bump 0x2100 0x12 0 1).raise 0x0203 sevWarning ([byte sensor, 0] ++ f32Bytes (tempF32 sample))

/-- A confirmed halt condition (R85, R88, R94, R125): logged in every state, a class D cause where something runs; in PEAT
0x2000:20 is set to 0. -/
def State.thermalLimit (s : State) (sensor : Nat) (sample : Int) : State :=
  let s := s.raise 0x0204 sevWarning ([byte sensor, 0] ++ f32Bytes (tempF32 sample))
  if s.life.state = .peat then s.setLed 0x2000 0x20 0 0
  else s.classD haltThermal sensor sensor ([byte sensor, 0, 0, 0] ++ f32Bytes (tempF32 sample))

/-- A halt condition that was confirmed before a start and still holds is open again: the next sample at or above the
threshold confirms it in the start, being the second of two consecutive ones (R85, R94). -/
def SensorState.reopened (x : SensorState) : SensorState :=
  match x.limit, x.sample with
  | true, some t => { x with limit := false, unconfirmed := some (t, true) }
  | _, _ => x

/-- What is kept of a sensor. -/
def State.sensor (s : State) (n : Nat) : SensorState := s.sensors.each.get SensorState.blank n

/-- What is kept of a sensor replaced. -/
def State.setSensor (s : State) (n : Nat) (x : SensorState) : State :=
  { s with sensors := { s.sensors with each := s.sensors.each.set SensorState.blank n x } }

/-- A DRAM layer sensor: numbers 16 to 23 (R640). -/
def isDram (n : Nat) : Bool := decide (16 ≤ n) && decide (n < 24)

/-- The sample passes the warning threshold of its group, and clears it (R85), in 1/400 °C. -/
def warnAt (n : Nat) (t : Int) : Bool := if isDram n then decide (36000 ≤ t) else decide (42000 < t)
/-- The sample clears the warning (R85). -/
def clearsAt (n : Nat) (t : Int) : Bool := if isDram n then decide (t ≤ 34800) else decide (t ≤ 40800)
/-- The sample is at or above the halt threshold (R85). -/
def haltAt (n : Nat) (t : Int) : Bool := if isDram n then decide (38800 ≤ t) else decide (44000 ≤ t)

/-- The samples of one round: DRAM layer samples are gathered, and a clearing round ends hot refresh when the last of the
eight has converted (R85, R87). -/
def State.dramSample (s : State) (n : Nat) (t : Int) : State :=
  let round := (n, t) :: (if n = 16 then [] else s.sensors.round)
  let s := { s with sensors := { s.sensors with round := round } }
  let s := if t > 34000 ∧ s.sensors.refreshing ∧ s.sensors.hot = false then
      match hottest round with
      | some (m, u) => s.hotOn m u
      | none => s
    else s
  if n = 23 ∧ round.length = 8 then
    let s := { s with sensors := { s.sensors with latest := round, round := [] } }
    if s.sensors.hot ∧ round.all fun x => x.2 ≤ 33200 then s.hotOff false else s
  else s

/-- A sample in range is compared with every threshold of its group (R85, R93). -/
def State.compareSample (s : State) (n : Nat) (t : Int) : State :=
  let x := s.sensor n
  let crosses := !x.warned && warnAt n t
  let warned := if crosses then true else if clearsAt n t then false else x.warned
  let x := { x with sample := some t, missed := 0, warned := warned
                    peak := some (match x.peak with | some p => max p t | none => t) }
  let confirms := haltAt n t && x.unconfirmed.isSome && !x.limit
  let x' := if haltAt n t then
      (if x.limit then x else if confirms then { x with limit := true, unconfirmed := none }
       else { x with unconfirmed := some (t, crosses) })
    else { x with limit := false, unconfirmed := none }
  let s := s.setSensor n x'
  let s := if crosses then s.thermalWarning n t else s
  let s := match x.unconfirmed with
    | some (u, false) => if haltAt n t then s else s.thermalWarning n u
    | _ => s
  let s := if isDram n then s.dramSample n t else s
  if confirms then s.thermalLimit n t else s

end Sys2Proof.Machine
end

