-- ==== Sys2Proof/Machine/Uhleg.lean ====
section
/-! DEFINITION. Machine/Uhleg.lean: the management core: image checks, boots and restarts, service unlock, the log's way
to NOR (chapter 18 and R591 to R595). -/

namespace Sys2Proof.Machine

/-! ### Firmware images -/

/-- What a bank holds. -/
def Update.bank (u : Update) : ImageBank → BankContent
  | .uhlegA => u.uhlegA
  | .uhlegB => u.uhlegB
  | .runtimeA => u.runtimeA
  | .runtimeB => u.runtimeB

/-- The banks with one replaced. -/
def Update.setBank (u : Update) (c : BankContent) : ImageBank → Update
  | .uhlegA => { u with uhlegA := c }
  | .uhlegB => { u with uhlegB := c }
  | .runtimeA => { u with runtimeA := c }
  | .runtimeB => { u with runtimeB := c }

/-- The number of a bank in 0x8000:02 (R623). -/
def bankNumber : ImageBank → Nat
  | .uhlegA => 0
  | .uhlegB => 1
  | .runtimeA => 2
  | .runtimeB => 3

/-- A bank of Uhleg's. -/
def isUhlegBank (b : ImageBank) : Bool := decide (bankNumber b < 2)

/-- The B bank of its part. -/
def isBankB (b : ImageBank) : Bool := bankNumber b % 2 == 1

/-- The bank of a part, 1 Uhleg or 2 runtime, by its letter. -/
def partBank (part : Nat) (b : Bool) : ImageBank :=
  if part = 1 then (if b then .uhlegB else .uhlegA) else (if b then .runtimeB else .runtimeA)

/-- The greatest payload of a part (R651). -/
def payloadLimit (part : Nat) : Nat := if part = 1 then 393216 else 16776960

/-- The bytes of a bank (R648). -/
def bankSize (b : ImageBank) : Nat := if isUhlegBank b then 0x100000 else 0x1000000

/-- A number in an image. -/
def imageNat (l : List Byte) (a n : Nat) : Nat := ofBytes ((l.drop a).take n)

/-- Bytes a to a + n − 1 are zero. -/
def zeroAt (l : List Byte) (a n : Nat) : Bool := ((l.drop a).take n).all (· == 0)

/-- The bytes of a bank: none where it is erased. -/
def Update.image (u : Update) (b : ImageBank) : List Byte :=
  match u.bank b with
  | .erased => []
  | .factory => Config.factoryImage (bankNumber b)
  | .bytes l => l

/-- The image checks of R652 on bytes, up to ROLLBACK; beyond them the bank reads erased: the first failure code, or 0. `update` gives the length and the
target that an update named. -/
def checkImage (s : State) (b : ImageBank) (flipped : Bool) (update : Option (Nat × Nat)) (l : List Byte) : Nat :=
  let part := if isUhlegBank b then 1 else 2
  let l := if l.length < 256 then padTo 0xFF 256 l else l
  let payload := imageNat l 12 4
  let header := l.take 256
  let body := padTo 0xFF payload (l.drop 256)
  if payload = 0 ∨ payloadLimit part < payload ∨ bankSize b < 256 + payload then 1
  else if update.any fun u => decide (256 + payload ≠ u.1) then 1
  else if imageNat header 0 4 ≠ 0x4D495752 ∨ imageNat header 5 1 ≠ 1 ∨ imageNat header 6 2 / 2 ≠ 0 ∨
      !zeroAt header 52 4 ∨ !zeroAt header 88 40 ∨ !zeroAt header 224 32 then 2
  else if imageNat header 4 1 ≠ part ∨ (update.any fun u => decide (imageNat header 4 1 ≠ u.2)) then 3
  else if sha256 ((header.drop 128).take 32) ≠ s.fuses.imageKeyHash then 4
  else if flipped ∨ sha256 body ≠ (header.drop 56).take 32 then 5
  else if !ed25519Verify ((header.drop 128).take 32) ((header.drop 160).take 64) (sha256 (header.take 128)) then 6
  else if imageNat header 8 4 < s.fuses.rollback.toNat then 7
  else 0

/-- The checks of R652 on a bank: the first failure code, or 0. The factory's image verifies until a bit flips or the
rollback counter passes it (log entry 4). -/
def State.checkBank (s : State) (b : ImageBank) (flipped : Bool) (update : Option (Nat × Nat) := none) : Nat :=
  match s.update.bank b with
  | .erased => 1
  | .factory =>
    if flipped then 5
    else if s.fuses.rollback = 0 then 0
    else if imageNat (s.update.image b) 8 4 < s.fuses.rollback.toNat then 7 else 0
  | .bytes l => checkImage s b flipped update l

/-- The security version of the image in a bank (R651). -/
def State.bankSecurity (s : State) (b : ImageBank) : Nat := imageNat (s.update.image b) 8 4

/-- The version string of the image in a bank (R651). -/
def State.bankVersion (s : State) (b : ImageBank) : Nat := imageNat (s.update.image b) 16 32

/-- The image sets ADVANCE_ROLLBACK (R651). -/
def State.bankAdvances (s : State) (b : ImageBank) : Bool := imageNat (s.update.image b) 6 2 % 2 == 1

/-- A bank shown as holding a verified image (0x8000:02, R652, R661). -/
def State.bankShown (s : State) (b : ImageBank) : Bool :=
  decide (b ∈ s.update.verified) && (s.fuses.rollback == 0 || decide (s.fuses.rollback.toNat ≤ s.bankSecurity b))

/-- A bank marked as holding a verified image, or no longer. -/
def State.markBank (s : State) (b : ImageBank) (ok : Bool) : State :=
  let rest := s.update.verified.filter (· != b)
  { s with update := { s.update with verified := if ok then b :: rest else rest } }

/-- An image passes its trial (R661): IDLE, UPDATE_ACTIVATED, and the rollback counter raised (R653). -/
def State.trialPassed (s : State) (b : ImageBank) : State :=
  let part := if isUhlegBank b then 1 else 2
  let s := s.setLed 0x8000 0x45 0 0
  let s := s.raise 0x0704 sevInfo ([byte part, byte (isBankB b).toNat, 0, 0] ++ toBytes 4 (s.bankSecurity b))
  if s.bankAdvances b ∧ s.fuses.rollback.toNat < s.bankSecurity b then
    let old := s.fuses.rollback.toNat
    let s := { s with fuses := { s.fuses with rollback := BitVec.ofNat 32 (s.bankSecurity b) } }
    s.raise 0x0706 sevInfo (toBytes 4 old ++ toBytes 4 (s.bankSecurity b))
  else s

/-- The Uhleg image on trial has proved itself (R661). -/
def State.uhlegTrialPassed (s : State) : State :=
  if s.uhleg.trial then
    let s := { s with uhleg := { s.uhleg with trial := false }, update := { s.update with pendingUhleg := false } }
    s.trialPassed (partBank 1 s.uhleg.bankB)
  else s

/-- A part boots another bank than the one named (R659, R663): it is named in 0x8000:03, and BANK_FALLBACK is raised with
the failure code of the bank left. -/
def State.fallback (s : State) (part : Nat) (toB : Bool) (code : Nat) : State :=
  let s := s.setStored 0x8000 0x03 0 (setBit (s.led 0x8000 0x03) (part - 1) toB)
  s.raise 0x0705 sevWarning [byte part, byte toB.toNat, byte code]

/-! ### Service unlock -/

/-- An unlock ends (R593): 1 relock, 2 expiry, 3 reset, 4 restart; factory test access goes with it. -/
def State.endUnlock (s : State) (why : Nat) : State :=
  if s.unlock.holder ≠ 0 then
    let s := s.raise 0x070A sevInfo [byte s.unlock.holder.toNat, byte why]
    let s := s.setLed 0x9000 0x01 0 0
    let state := if s.unlock.state = 1 then 0 else s.unlock.state
    { s with unlock := { s.unlock with state := state, holder := 0, minutes := 0 } }
  else s

/-- A new random challenge (R591): a free value of 32 bytes, one draw each. -/
def State.newChallenge (s : State) : State :=
  { s with
    unlock := { s.unlock with challenge := (countFrom s.fresh 32).map Config.freeByte }
    fresh := s.fresh + 32 }

/-! ### Mailboxes -/

/-- A mailbox answers (R589). -/
def Mailbox.answerWith (m : Mailbox) (abort detail : Nat) (data : List Byte) : Mailbox :=
  { m with
    state := 2
    abort := byte abort
    ansLength := BitVec.ofNat 16 data.length
    ansTag := m.tag
    detail := BitVec.ofNat 32 detail
    answer := Sparse.write 0 [] 0 data }

/-- A request in BUSY is answered BUSY by the mailbox hardware while Uhleg restarts (R594). -/
def State.busyMailboxes (s : State) : State :=
  let s := if s.corePort.state = 1 then { s with corePort := s.corePort.answerWith 0x0F 0 [] } else s
  if s.mailbox.state = 1 then ({ s with mailbox := s.mailbox.answerWith 0x0F 0 [] }).msix 2 else s

/-! ### Restarts and boots -/

/-- Uhleg restarts (R594, R638): unlock ends, open CAN FD requests are lost, the mailboxes answer BUSY. UHLEG_BOOT follows. -/
def State.restartUhleg (s : State) (cause : Nat) : State :=
  let s := s.endUnlock 4
  let s := { s with
    uhleg := { s.uhleg with phase := .restarting cause }
    can := { s.can with downloads := [], busOff := false } }
  s.busyMailboxes

/-- Persisted entries of which no intact record remains take their default (R578, R636). -/
def State.loseEntries (s : State) : List (Half × Byte) → State
  | [] => s
  | (index, sub) :: t =>
    let gone (m : Sparse Nat) : Sparse Nat := m.filter fun x => x.1 / 2 ^ 16 ≠ index.toNat * 2 ^ 8 + sub.toNat
    let hit := ((findEntry index.toNat sub.toNat).map Entry.persisted).getD false
    let s := if hit then
        ({ s with ledger := { s.ledger with live := gone s.ledger.live, store := gone s.ledger.store } }).raise
          0x0707 sevWarning (toBytes 2 index.toNat ++ [sub])
      else s
    State.loseEntries s t

/-- An update cut off in its steps 1 to 4 ends (R657). -/
def State.cutUpdate (s : State) : State :=
  let status := s.led 0x8000 0x45
  if status = 1 ∨ status = 2 ∨ status = 3 then
    let s := match s.update.targetBank with
      | some b => s.markBank b false
      | none => s
    s.setLed 0x8000 0x45 0 0
  else s

/-- The image on trial restarted Uhleg: its trial has failed, and the previous bank is named again (R662, R663). -/
def State.failTrial (s : State) : State :=
  if s.uhleg.trial then
    let named := bit (s.led 0x8000 0x03) 0
    let s := (s.fallback 1 (!named) 9).failUpdate 1 named 9
    { s with uhleg := { s.uhleg with trial := false }, update := { s.update with pendingUhleg := false } }
  else s

/-- The boot ROM checks the bank that 0x8000:03 names, and the other where that one does not verify, and boots the one
that verifies; where neither does, the recovery path runs (R659). -/
def State.bootNamed (s : State) (flipped : List ImageBank) : State × Bool :=
  let named := bit (s.led 0x8000 0x03) 0
  let first := partBank 1 named
  let code := s.checkBank first (decide (first ∈ flipped))
  let s := s.markBank first (code == 0)
  if code = 0 then
    ({ s with uhleg := { s.uhleg with bankB := named, trial := s.update.pendingUhleg, phase := .firmware } }, true)
  else
    let other := partBank 1 (!named)
    let code' := s.checkBank other (decide (other ∈ flipped))
    let s := s.markBank other (code' == 0)
    if code' = 0 then
      let s := s.fallback 1 (!named) code
      ({ s with
          uhleg := { s.uhleg with bankB := !named, trial := false, phase := .firmware }
          update := { s.update with pendingUhleg := false } }, true)
    else ({ s with uhleg := { s.uhleg with phase := .recovery, trial := false } }, false)

/-- The boot ROM chooses what runs (R659, R662, R663): the firmware of a bank, or the recovery path. -/
def State.selectBank (s : State) (flipped : List ImageBank) : State × Bool := s.failTrial.bootNamed flipped

/-- The end of a boot: UHLEG_BOOT, the UART line, NOTIFY BOOT (R587, R638, R639, R647). -/
def State.bootDone (s : State) (cause : Nat) : State :=
  let recovery := s.uhleg.phase == .recovery
  let s := s.raise 0x0101 sevInfo [byte cause, byte s.uhleg.bankB.toNat, byte recovery.toNat]
  (s.emit (.uartBoot cause s.uhleg.bankB)).notify 1

/-- A Uhleg boot (R106, R117, R577, R607, R638, R657, R659): the pins are sampled, the store is read, a start found open
in NOR or running ends as a failure, the bank is chosen, and the device enters STANDBY or PEAT as R98 gives. -/
def State.bootUhleg (s : State) (cause : Nat) (b : BootSample) (peat : Option Word) : State :=
  let trialFailed := s.uhleg.trial
  let s := { s with
    uhleg := { s.uhleg with devId := b.devId, trayId := b.trayId, boots := s.uhleg.boots + 1, phase := .firmware }
    life := { s.life with bootSafe := b.bootSafe } }
  let s := (s.loseEntries b.lost).newChallenge
  let s := if s.uhleg.boots = 1 then s else s.bumpStored 0x8000 0x05 0 1
  let s := s.cutUpdate
  let s := { s with update := { s.update with runtimeRan := none } }
  let cause := if trialFailed then 5 else cause
  match s.life.state with
  | .off =>
    let s := match s.life.openAttempt with
      | some stage =>
        (({ s with life := { s.life with stage := stage } }.recordFailure (failureRecord 0x01 stage 1)).runtimeFallback).setStored
          0x1100 0x08 0 0
      | none => s
    let s := { s with life := { s.life with stage := 0, serveOkLow := true, haltAsserted := false } }
    let r := s.selectBank b.flipped
    if b.bootSafe then (r.1.enterPeat 2 peat).bootDone cause
    else if r.2 then (r.1.enterState .standby).bootDone cause
    else (r.1.enterPeat 3 peat).bootDone cause
  | .standby =>
    let r := s.selectBank b.flipped
    if b.bootSafe then (r.1.enterPeat 2 peat).bootDone cause
    else if r.2 then r.1.bootDone cause
    else (r.1.enterPeat 3 peat).bootDone cause
  | .starting =>
    let s := s.endAttempt 0x10 0
    let r := s.selectBank b.flipped
    if b.bootSafe then (r.1.enterPeat 2 peat).bootDone cause
    else if !r.2 then (r.1.enterPeat 3 peat).bootDone cause
    else if r.1.led 0x1100 0x03 ≥ 3 then (r.1.enterPeat 4 peat).bootDone cause
    else (r.1.enterState .halted).bootDone cause
  | .peat => ({ s with uhleg := { s.uhleg with phase := .recovery, trial := false } }).bootDone cause
  | _ =>
    let r := s.selectBank b.flipped
    r.1.bootDone cause

/-! ### The log's way to NOR -/

/-- The 32 bytes of a record (R643). -/
def logBytes (number : Nat) (r : LogRec) : List Byte :=
  let body := toBytes 4 number ++ toBytes 8 r.time.toNat ++ toBytes 2 r.code.toNat ++
    [byte r.severity, byte r.state] ++ r.data
  body ++ toBytes 2 (crc16 body).toNat

/-- The place of record n in the ring: sector (n div 128) mod 65, slot n mod 128 (R649). -/
def logPlace (n : Nat) : Nat := n / 128 % 65 * 128 + n % 128

/-- The oldest record of the front is written to NOR and leaves the front (R645, R649); the sector is erased before its
first record. When the front then has room, a LOG_LOST record tells what was dropped (R646). -/
def State.writeLog (s : State) : State :=
  match s.log.front with
  | [] => s
  | r :: rest =>
    let n := s.led 0x8000 0x10
    let bytes := logBytes n r
    let ring := if n % 128 = 0 then s.log.ring.clear (logPlace n) 128 else s.log.ring
    let s := { s with log := { s.log with front := rest, ring := ring.put (logPlace n) bytes } }
    let s : State := (s.setStored 0x8000 0x10 0 ((n + 1) % 2 ^ 32)).emit (.uartRecord bytes)
    let others : Nat := (rest.filter fun x => x.severity ≠ sevHalt).length
    if s.log.dropped ≠ 0 ∧ others < 248 ∧ rest.length < 256 then
      let lost := s.log.dropped
      ({ s with log := { s.log with dropped := 0 } }).raise 0x070C sevWarning (toBytes 4 lost)
    else s

end Sys2Proof.Machine
end

