-- ==== Sys2Proof/Machine/Ledger.lean ====
section
/-! DEFINITION. Machine/Ledger.lean: requests to the Ledger (chapter 16): what an entry reads as, the checks of R569, the
effect of a write, and the answers on each path. -/

namespace Sys2Proof.Machine

/-! ### What entries read as -/

/-- A state of a port as 0x7000:01 codes it (R525). -/
def PortState.code : PortState → Nat
  | .disabled => 0
  | .dark => 1
  | .training => 2
  | .mismatch => 3
  | .up => 4
  | .down => 5

/-- A state of a queue as STATE codes it (R402). -/
def QState.code : QState → Nat
  | .disabled => 0
  | .idle => 1
  | .running => 2
  | .waiting => 3
  | .parked => 4
  | .faulted => 5
  | .resetting => 6

/-- A queue's registers. -/
def State.queue (s : State) (q : Nat) : Queue := (s.front.queues.find? q).getD (Queue.blank q)

/-- The F32 code of a sample that may be absent, as a number. -/
def sampleCode (t : Option Int) : Nat := (t.map fun x => (tempF32 x).toNat).getD 0

/-- A rail voltage as reported (R611): in STANDBY and PEAT a rail other than VAUX33 that is out of window reads 0. -/
def State.railMilliVolts (s : State) (m : Monitors) (i : Nat) : Nat :=
  let r := ([.vcore, .vmem, .vlnk, .vio18, .vaux33, .vprg] : List Rail).getD i .vaux33
  if (s.life.state = .standby ∨ s.life.state = .peat) ∧ i ≠ 4 ∧ s.power.inWindow.get r = false then 0
  else s.railReading r (m.milliVolts.getD i 0) % 2 ^ 16

/-- A rail current as reported (R611). -/
def State.railMilliAmps (s : State) (m : Monitors) (i : Nat) : Nat :=
  let r := ([.vcore, .vmem, .vlnk, .vio18, .vaux33, .vprg] : List Rail).getD i .vaux33
  if (s.life.state = .standby ∨ s.life.state = .peat) ∧ i ≠ 4 ∧ s.power.inWindow.get r = false then 0
  else s.railReading r (m.milliAmps.getD i 0) % 2 ^ 32

/-- Package power in mW (0x2000:12): the sum over the rails, rounded once (R45). -/
def State.packageMilliWatts (s : State) (m : Monitors) : Nat :=
  divRne ((countFrom 0 6).foldl (fun a i => a + s.railMilliVolts m i * s.railMilliAmps m i) 0) 1000 % 2 ^ 32

/-- Record number n as 0x8000:12 returns it (R625): 32 zero bytes when it is not yet written or
its number lies 8,192 or more below the records written. -/
def State.logRecord (s : State) (n : Nat) : List Byte :=
  let written := s.led 0x8000 0x10
  let age := (written + 2 ^ 32 - n) % 2 ^ 32
  if age = 0 ∨ 8192 ≤ age then List.replicate 32 0
  else (s.log.ring.find? (logPlace n)).getD (List.replicate 32 0)

/-- The log block from a read position (R625). -/
def State.logBlock (s : State) : List Byte :=
  let p := s.led 0x8000 0x11
  (countFrom 0 64).flatMap fun i => s.logRecord ((p + i) % 2 ^ 32)

/-- Seconds until the unlock ends (0x8000:34), by the UCLK count. -/
def State.unlockSeconds (s : State) : Nat :=
  if s.unlock.holder ≠ 0 then s.unlock.minutes * 60 - (s.power.uclk - s.unlock.since) / 150000000 else 0

/-- The version string of the running Uhleg firmware, "ROM" on the recovery path (0x8000:01, R635). -/
def State.uhlegVersion (s : State) : Nat :=
  if s.uhleg.phase = .recovery then 0x4D4F52 else s.bankVersion (partBank 1 s.uhleg.bankB)

/-- Whether an entry is one that the hardware maintains or the model keeps elsewhere, and then its value. -/
def State.viewed (s : State) (m : Monitors) (index sub e : Nat) : Option Nat :=
  if index = 0x1000 then
    if sub = 0x07 then some s.uhleg.devId.toNat else if sub = 0x08 then some s.uhleg.trayId.toNat else none
  else if index = 0x1100 then
    if sub = 0x01 then some s.life.state.code
    else if sub = 0x02 then some s.life.stage
    else if sub = 0x07 then (if s.life.state = .peat then none else some 0)
    else if sub = 0x14 then some s.meshComplete.toNat
    else if sub = 0x15 then some s.life.bootSafe.toNat
    else none
  else if index = 0x2000 then
    if sub = 0x02 then some (s.power.rootLock.toNat + 2 * s.power.laneLock.toNat)
    else if sub = 0x10 then some (s.railMilliVolts m e)
    else if sub = 0x11 then some (s.railMilliAmps m e)
    else if sub = 0x12 then some (s.packageMilliWatts m)
    else if sub = 0x21 then some (m.vprgSense % 2 ^ 16)
    else none
  else if index = 0x2100 then
    if sub = 0x01 then some (sampleCode (s.sensor e).sample)
    else if sub = 0x02 then some (sampleCode (s.sensor (16 + e)).sample)
    else if sub = 0x03 then some (sampleCode (s.sensor (24 + e)).sample)
    else if sub = 0x04 then some (sampleCode (s.sensor e).peak)
    else if sub = 0x05 then some (s.sensor e).failed.toNat
    else if sub = 0x10 then some s.sensors.hot.toNat
    else none
  else if index = 0x3000 ∧ sub = 0x03 then some (if s.sensors.hot then 2340 else 4680)
  else if index = 0x6000 then
    if sub = 0x22 then some s.front.recipes.length
    else if sub = 0x23 then
      some (s.led 0x6000 0x21 * 1024 -
        4 * (s.front.recipes.foldl (fun a r => a + (r.2.map Recipe.units).getD 0) 0))
    else if sub = 0x34 then some (s.queue e).state.code
    else none
  else if index = 0x6400 then
    if sub = 0x01 then some ((s.update.runtimeRan.map fun b => s.bankVersion (partBank 2 b)).getD 0)
    else if sub = 0x02 then some s.serve.status.toNat
    else if sub = 0x03 then some s.serve.error.toNat
    else none
  else if index = 0x7000 ∧ sub = 0x01 then some (s.port e).state.code
  else if index = 0x7800 then
    if sub = 0x01 then some s.pcie.speed.toNat
    else if sub = 0x02 then some s.pcie.width.toNat
    else if sub = 0x03 then some s.pcie.flit.toNat
    else if sub = 0x04 then some s.pcie.bar2Log
    else if sub = 0x14 then some s.pcie.aerStatus.toNat
    else if sub = 0x16 then some s.pcie.hostErrCount.toNat
    else if sub = 0x17 then some s.pcie.accessErrCount.toNat
    else none
  else if index = 0x8000 then
    if sub = 0x01 then some s.uhlegVersion
    else if sub = 0x02 then
      let b := ([.uhlegA, .uhlegB, .runtimeA, .runtimeB] : List ImageBank).getD e .uhlegA
      some (if s.bankShown b then s.bankVersion b else 0)
    else if sub = 0x12 then some (ofBytes s.logBlock)
    else if sub = 0x20 then some s.node
    else if sub = 0x30 then some (if s.unlock.state = 2 then 0 else ofBytes s.unlock.challenge)
    else if sub = 0x32 then some s.unlock.state.toNat
    else if sub = 0x33 then some s.unlock.holder.toNat
    else if sub = 0x34 then some s.unlockSeconds
    else if sub = 0x50 then some s.time.toNat
    else none
  else none

/-- What an element of an entry reads as (R562 to R566, R570, R599): entries of class WO read zero. -/
def State.entryValue (s : State) (m : Monitors) (en : Entry) (index e : Nat) : Nat :=
  if en.access = .wo then 0
  else if en.sub = 0 then en.default
  else (s.viewed m index en.sub e).getD (s.led index en.sub e)

/-! ### Requests -/

/-- A request as it reaches Uhleg (R567): command, entry, element range, data length and data; whether a reserved field
is not zero; the path's code (0x8000:33) and what it can carry. -/
structure Request where
  command : Nat
  index : Nat
  sub : Nat
  first : Nat
  count : Nat
  length : Nat
  data : List Byte
  reserved : Bool
  path : Nat
  readLimit : Nat
  writeLimit : Nat
  deriving DecidableEq, Repr

/-- The request that a mailbox block holds (R588, R589). -/
def Mailbox.request' (m : Mailbox) (path : Nat) : Request :=
  { command := m.command.toNat, index := m.index.toNat, sub := m.sub.toNat, first := m.first.toNat
    count := m.count.toNat, length := m.reqLength.toNat
    data := Sparse.read 0 m.request 0 (min m.reqLength.toNat 1792)
    reserved := false, path := path, readLimit := 2048, writeLimit := 1792 }

/-- The request of a CAN FD REQUEST frame with its data (R582). -/
def canRequest (ident : BitVec 29) (frame data : List Byte) : Request :=
  let f := padTo 0 16 frame
  { command := imageNat f 0 1, sub := imageNat f 1 1, index := imageNat f 2 2, first := imageNat f 4 2
    count := imageNat f 6 2, length := imageNat f 8 4, data := data
    reserved := imageNat f 12 4 != 0, path := 0x10 + bits ident.toNat 5 3, readLimit := 16384, writeLimit := 16384 }

/-- A frame is a REQUEST (function 0x08) to this device's tray and node (R580, R581). -/
def State.ownFrame (s : State) (function : Nat) (ident : BitVec 29) : Bool :=
  bits ident.toNat 24 5 == function && bits ident.toNat 16 8 == s.uhleg.trayId.toNat && bits ident.toNat 8 8 == s.node

/-- The request that a command names, if one waits there: a mailbox that is BUSY, a frame for this device, a download
that is whole. -/
def State.requestAt (s : State) : LedgerPath → Option Request
  | .mailbox => if s.mailbox.state = 1 then some (s.mailbox.request' 1) else none
  | .corePort _ => if s.corePort.state = 1 then some (s.corePort.request' 2) else none
  | .can ident data =>
    if s.can.busOff = false ∧ s.ownFrame 0x08 ident then
      let r := canRequest ident data []
      some (canRequest ident data ((data.drop 16).take (if r.command = 2 then r.length else 0)))
    else none
  | .download r =>
    match s.can.downloads.find? fun d => d.requester == r.val with
    | some d =>
      let q := canRequest d.ident d.request d.data
      if q.length ≤ d.data.length then some q else none
    | none => none

/-- The element range is valid (R567). -/
def Request.rangeOk (r : Request) (e : Entry) : Bool :=
  (r.first == 0 && r.count == 0) ||
    (e.array.isSome && decide (1 ≤ r.count) && decide (r.first + r.count ≤ e.elements))

/-- Elements that the range names. -/
def Request.elements (r : Request) (e : Entry) : Nat := if r.count = 0 then e.elements else r.count

/-- The size that a request implies (R567). -/
def Request.implied (r : Request) (e : Entry) : Nat := r.elements e * e.ty.size

/-- The value written to the i-th element that the range names. -/
def Request.value (r : Request) (e : Entry) (i : Nat) : Nat := imageNat r.data (i * e.ty.size) e.ty.size

/-! ### Values -/

/-- One UTF-8 character at the head of bytes: how many bytes it takes, 0 when it is not valid. -/
def utf8Head (l : List Byte) : Nat :=
  let b := imageNat l 0 1
  let c (i : Nat) : Bool := imageNat l i 1 / 64 == 2
  if b < 0x80 then 1
  else if 0xC2 ≤ b ∧ b < 0xE0 ∧ c 1 then 2
  else if 0xE0 ≤ b ∧ b < 0xF0 ∧ c 1 ∧ c 2 ∧ (b = 0xE0 → 0xA0 ≤ imageNat l 1 1) ∧
      (b = 0xED → imageNat l 1 1 < 0xA0) then 3
  else if 0xF0 ≤ b ∧ b < 0xF5 ∧ c 1 ∧ c 2 ∧ c 3 ∧ (b = 0xF0 → 0x90 ≤ imageNat l 1 1) ∧
      (b = 0xF4 → imageNat l 1 1 < 0x90) then 4
  else 0

/-- The offset of the first byte that is no part of valid UTF-8 (R563). -/
def utf8Bad : Nat → Nat → List Byte → Option Nat
  | 0, _, _ => none
  | _, _, [] => none
  | fuel + 1, at_, l =>
    let n := utf8Head l
    if n = 0 then some at_ else utf8Bad fuel (at_ + n) (l.drop n)

/-- The first offending byte of a STR32 value (R563). -/
def str32Bad (l : List Byte) : Option Nat :=
  let text := l.takeWhile (· != 0)
  match utf8Bad 33 0 text with
  | some i => some i
  | none =>
    match (l.drop text.length).findIdx? (· != 0) with
    | some i => some (text.length + i)
    | none => none

/-- A plain value that the home chapter allows for an entry; `v` is the value written, and the type's own limits are
checked beside it. -/
def numberOk (index sub v : Nat) : Bool :=
  if index = 0x1100 ∧ sub = 0x10 then between 1 v 3
  else if index = 0x1100 ∧ sub = 0x11 then between 0 v 1
  else if index = 0x3000 ∧ sub = 0x40 then between 1 v 168
  else if index = 0x5400 ∧ sub = 0x02 then between 256 v 65536
  else if index = 0x5400 ∧ sub = 0x03 then between 0 v 1024
  else if index = 0x6000 ∧ sub = 0x10 then between 5 v 1000
  else if index = 0x6000 ∧ sub = 0x11 then between 1 v 1000
  else if index = 0x6000 ∧ sub = 0x12 then between 2 v 255
  else if index = 0x6000 ∧ sub = 0x13 then between 0 v 1
  else if index = 0x6000 ∧ sub = 0x21 then between 16 v 1024
  else if index = 0x6400 ∧ sub = 0x10 then between 20 v 10000
  else if index = 0x6400 ∧ sub = 0x11 then between 0 v 10000
  else if index = 0x6800 ∧ sub = 0x20 then between 10 v 10000
  else if index = 0x6800 ∧ sub = 0x42 then between 0 v 4095
  else if index = 0x7800 ∧ sub = 0x05 then between 1 v 6
  else if index = 0x8000 ∧ sub = 0x40 then between 0 v 2
  else if index = 0x8000 ∧ sub = 0x41 then between 1 v 16777216
  else if index = 0x8000 ∧ sub = 0x44 then between 1 v 4
  else true

end Sys2Proof.Machine
end

