-- ==== Sys2Proof/Machine/Mem.lean ====
section
/-! DEFINITION. Machine/Mem.lean: what every access to the stacked memory shares (chapters 05 and 06): the address map,
errors of codewords, the slices of the shared cache. -/

namespace Sys2Proof.Machine

/-! ### The address map -/

/-- n bytes from a local address lie wholly in the populated part of one chimney (R131, R134, R168). -/
def populated (a n : Nat) : Bool := decide (a < 2 ^ 37) && decide (a % 2 ^ 33 + n ≤ 3 * 2 ^ 31)

/-- The chimney of a local address (R132). -/
def chimneyOf (a : Nat) : Nat := bits a 33 4

/-- The channel of a local address, cell · 32 + channel (R107, R132). -/
def channelOf (a : Nat) : Nat := chimneyOf a * 32 + bits a 8 5

/-- The bank within its channel: 4 · bank group + bank in group (R132). -/
def bankOf (a : Nat) : Nat := 4 * (2 * bits a 13 1 + bits a 7 1) + bits a 14 2

/-- The row of its bank (R132). -/
def rowOf (a : Nat) : Nat := bits a 20 13

/-- The address is cacheable: it lies in its chimney's cached window (R171). -/
def State.cacheable (s : State) (a : Nat) : Bool :=
  decide (a < 2 ^ 37) && decide (a % 2 ^ 33 < s.led 0x3400 0x01 (chimneyOf a) * 2 ^ 20)

/-- n bytes from a local address are all cacheable. -/
def State.allCacheable (s : State) (a n : Nat) : Bool := s.cacheable a && s.cacheable (a + n - 1) && populated a n

/-- The slice of a cacheable address (R172). -/
def sliceOf (a : Nat) : Nat :=
  ((((((bits a 11 4 ^^^ bits a 15 4) ^^^ bits a 19 4) ^^^ bits a 23 4) ^^^ bits a 27 4) ^^^ bits a 31 4) ^^^ bits a 35 2)

/-- The set of a line within its slice (R172). -/
def setOf (a : Nat) : Nat := bits a 15 8 * 16 + bits a 7 4

/-- The global address of a local one (R131): this device's number is that of its DEV_ID straps. -/
def State.global (s : State) (a : Nat) : Nat := s.uhleg.devId.toNat * 2 ^ 44 + a

/-- The granules that n bytes from an address touch, as local addresses over 128. -/
def granulesOf (a n : Nat) : List Nat := if n = 0 then [] else countFrom (a / 128) ((a + n - 1) / 128 - a / 128 + 1)

/-- Two spans of numbers overlap; an empty one overlaps nothing. -/
def overlaps (a n b m : Nat) : Bool := decide (0 < n) && decide (0 < m) && decide (a < b + m) && decide (b < a + n)

/-- No two spans of a list overlap. -/
def apart : List (Nat × Nat) → Bool
  | [] => true
  | x :: t => (t.all fun y => !overlaps x.1 x.2 y.1 y.2) && apart t

/-- n bytes at a local address lie in the runtime region (R451). -/
def regionHolds (a n : Nat) : Bool :=
  decide (a % 2 ^ 33 + n ≤ 2 ^ 24) || (decide (2 ^ 25 ≤ a) && decide (a + n ≤ 2 ^ 28))

/-- The bytes that the structures of the tree take at the greatest node capacity (R327, R328, R351): start and length. -/
def TreePlace.spans (p : TreePlace) : List (Nat × Nat) :=
  [(p.nodes, 64 * 65536), (p.tokens, 2048 * 65536), (p.chains, 4 * 65536)]

/-! ### Errors -/

/-- The error record of R156; no bit stands for an uncorrectable codeword. -/
def State.errorRecord (s : State) (granule codeword : Nat) (b : Option Byte) : Nat :=
  codeword * 16 + s.global (granule * 128) + (b.map BitVec.toNat).getD 0xFF * 2 ^ 56

/-- 24 hours of UCLK (R154). -/
def ucklOfDay : Nat := 24 * 3600 * 150000000

/-- A codeword is corrected (R154): counted, recorded, and logged when it was corrected within the last 24 hours, but not
in stage 6 (R160). -/
def State.correctCodeword (s : State) (granule codeword : Nat) (b : Byte) : State :=
  let record := s.errorRecord granule codeword (some b)
  let key := granule * 8 + codeword
  let again := s.memctl.corrected.any fun x => x.1 == key && decide (s.power.uclk - x.2 ≤ ucklOfDay)
  let others := s.memctl.corrected.filter fun x => x.1 != key
  let s := (s.bump 0x3000 0x10 (chimneyOf (granule * 128)) 1).setLed 0x3000 0x11 0 record
  let s := { s with memctl := { s.memctl with corrected := (key, s.power.uclk) :: others } }
  if again && !(s.life.state == .starting && s.life.stage == 6) then s.raise 0x0301 sevWarning (toBytes 8 record) else s

/-- A granule is found uncorrectable (R155, R177): counted once for each codeword, recorded by the lowest of them, a
class D cause. -/
def State.loseGranule (s : State) (granule : Nat) (codewords : List Nat) : State :=
  if granule ∈ s.memctl.lost ∨ codewords = [] then s
  else
    let record := s.errorRecord granule (codewords.foldl min 7) none
    let s := { s with memctl := { s.memctl with lost := granule :: s.memctl.lost } }
    let s := (s.bumpStored 0x3000 0x12 0 codewords.length).setStored 0x3000 0x13 0 record
    s.classD haltMemUncorrectable granule (channelOf (granule * 128)) (toBytes 8 record)

/-- The codewords of a granule that a list of errors finds uncorrectable. -/
def badCodewords (errors : List CodewordError) (granule : Nat) : List Nat :=
  (errors.filter fun e => e.granule == granule && e.bit.isNone).map fun e => e.codeword.val

/-- Errors that a read of DRAM finds, one after the other: corrections and uncorrectable granules (R154, R155). -/
def State.countErrors (s : State) : List CodewordError → State
  | [] => s
  | e :: t =>
    match e.bit with
    | some b => (s.correctCodeword e.granule e.codeword b).countErrors t
    | none => (s.loseGranule e.granule (badCodewords (e :: t) e.granule)).countErrors t

/-- What a read of DRAM finds wrong (R154, R155): a granule found uncorrectable before counts nothing further. -/
def State.dramErrors (s : State) (errors : List CodewordError) : State :=
  s.countErrors (errors.filter fun e => decide (e.granule ∉ s.memctl.lost))

/-- No granule that the access reads is uncorrectable. -/
def State.intact (s : State) (granules : List Nat) : Bool := granules.all fun g => decide (g ∉ s.memctl.lost)

/-- The channel of a number. -/
def State.channel (s : State) (c : Nat) : Channel := s.memctl.channels.get Channel.blank c

/-- The channel replaced. -/
def State.setChannel (s : State) (c : Nat) (x : Channel) : State :=
  { s with memctl := { s.memctl with channels := s.memctl.channels.set Channel.blank c x } }

/-- A waiting write-back of a corrected granule that a write of the queue makes needless (R154). -/
def needless (queue : List Queued) (x : Queued) : Bool :=
  x.req.source == .scrub && queue.any fun y => y.req.addr == x.req.addr && y.req.write.isSome

/-- Requests that wait outside are admitted in the order in which they came, as long as the queue has room (R143, R145, R232); a
write-back is dropped where a write to its granule is queued (R154). The arrival order holds for all routers of the channel
(DESIGN CHOICE, log entry 141). -/
def takeIn (queue : List Queued) : List Queued → List Queued × List Queued
  | [] => (queue, [])
  | x :: t =>
    if needless queue x then takeIn queue t
    else if queue.length < 16 then takeIn (queue ++ [x]) t
    else (queue, x :: t)

/-- Room in a channel's queue goes to the requests that wait outside. -/
def Channel.admitted (c : Channel) : Channel :=
  let r := takeIn c.queue c.outside
  { c with queue := r.1, outside := r.2 }

/-- A request reaches a channel: it enters the queue behind those that wait outside. -/
def State.reachChannel (s : State) (x : Queued) : State :=
  let n := channelOf x.req.addr
  let c := s.channel n
  s.setChannel n { c with outside := c.outside ++ [x] }.admitted

/-- The write-back of a corrected granule is queued (R154): it changes no byte. -/
def State.queueWriteBack (s : State) (granule : Nat) : State :=
  s.reachChannel ⟨⟨.scrub, .p3, granule * 128, some (List.replicate 128 none)⟩, false, [], false⟩

/-- What a read of DRAM that is no part of a write finds wrong (R154, R155): each granule corrected, and not uncorrectable, is
written back. -/
def State.readErrors (s : State) (errors : List CodewordError) : State :=
  let t := s.dramErrors errors
  (errors.filter fun e => e.bit.isSome && decide (e.granule ∉ t.memctl.lost)).foldl
    (fun (t : State) e => t.queueWriteBack e.granule) t

/-! ### Errors of cells and of the fabric -/

/-- The unit code of 0x4000:32 (R234); none for a cell sequencer, whose errors are the front end's (R678). -/
def unitCode : CellUnit → Option Nat
  | .buffer => some 1
  | .accumulator => some 2
  | .latch => some 3
  | .statistics => some 4
  | .fabric => some 5
  | .sequencer => none

/-- An uncorrectable error of a cell (R227, R233, R240, R263, R678). -/
def State.cellError (s : State) (c : Nat) (u : CellUnit) (location : Nat) : State :=
  match unitCode u with
  | some k =>
    let v := k + location % 2 ^ 19 * 16
    (s.setStored (0x4000 + c) 0x32 0 v).classD haltCell c c ([byte c, 0, 0, 0] ++ toBytes 4 v)
  | none => s.classD haltFrontEnd c c [byte c, 0, 0, 0, 0, 0, 0, 0]

/-- Nothing goes wrong in the hardware. -/
def quiet : Hw := ⟨[], [], [], [], [], [], []⟩

/-- Flits that routers corrected are counted (R233). -/
def State.countFlits (s : State) (hw : Hw) : State :=
  hw.flitFixed.foldl (fun (s : State) (c : CellId) => s.bump (0x4000 + c.val) 0x31 0 1) s

/-- What the fabric does to a request of an agent outside the cells (R233): corrected flits are counted, and an uncorrectable one
is an error of its router's cell. Answers whether the data came through. -/
def State.crossFabric (s : State) (hw : Hw) : State × Bool :=
  let lost := hw.cellBad.filter fun x => x.2.1 == .fabric
  (lost.foldl (fun (s : State) x => s.cellError x.1.val .fabric x.2.2) (s.countFlits hw), lost.isEmpty)

/-- What a command of a queue met in the cells and on the fabric (R224, R227, R233): corrected errors are counted, the others
recorded. -/
def State.meet (s : State) (hw : Hw) : State :=
  let s := hw.cellFixed.foldl (fun (s : State) (c : CellId) => s.bump (0x4000 + c.val) 0x30 0 1) (s.countFlits hw)
  hw.cellBad.foldl (fun (s : State) x => s.cellError x.1.val x.2.1 x.2.2) s

/-- What the hardware finds wrong in a cell. -/
def badIn (hw : Hw) (c : Nat) : Option (CellUnit × Nat) :=
  (hw.cellBad.find? fun x => x.1.val == c).map Prod.snd

/-- A flit was lost at a router other than those of the cells named. -/
def lostFlit (hw : Hw) (mask : BitVec 16) : Bool := hw.cellBad.any fun x => x.2.1 == .fabric && !mask.getLsbD x.1.val

/-- An agent's work over the fabric; data that an uncorrectable flit carried is delivered to no one (R227, R233). -/
def State.overFabric (s : State) (hw : Hw) (work : State → State) : State :=
  let r := s.crossFabric hw
  if r.2 then work r.1 else r.1

/-! ### Slices -/

/-- The line of a granule, if a slice holds it. -/
def State.lineAt (s : State) (granule : Nat) : Option Line := s.cache.lines.find? fun l => l.addr == granule * 128

/-- The lines without that of an address. -/
def otherLines (lines : List Line) (addr : Nat) : List Line := lines.filter fun l => l.addr != addr

/-- Lines of the same set of the same slice. -/
def sameSet (a b : Nat) : Bool := sliceOf a == sliceOf b && setOf a == setOf b

/-- The line that gives way to a new one: the least recently used of a full set (R170). -/
def victim (lines : List Line) (addr : Nat) : Option Line :=
  let mates := lines.filter fun l => sameSet l.addr addr
  if mates.length < 16 then none else mates.getLast?

/-- The 16 B units of a granule's line that are found uncorrectable (R177). -/
def badUnits (hw : Hw) (granule : Nat) : List Nat := (hw.sliceBad.filter fun u => u / 8 == granule).map fun u => u % 8

/-- A slice reads a line it holds (R177): its units found corrected are counted, and those found uncorrectable lose it. -/
def State.readLine (s : State) (hw : Hw) (granule : Nat) : State :=
  let fixed := (hw.sliceFixed.filter fun u => u / 8 == granule).length
  (s.bump 0x3400 0x10 (sliceOf (granule * 128)) fixed).loseGranule granule (badUnits hw granule)

/-- A line leaves its slice (R170): the bytes of a dirty one reach DRAM, unless the line holds an uncorrectable error (R177,
R193). -/
def State.evict (s : State) (hw : Hw) (l : Line) : State :=
  let s := { s with cache := { s.cache with lines := otherLines s.cache.lines l.addr } }
  if l.dirty then
    let s := s.readLine hw (l.addr / 128)
    if l.bad ∨ badUnits hw (l.addr / 128) ≠ [] then { s with mem := Sparse.write 0 s.mem l.addr l.dram } else s
  else s

/-- A reservation on a line ends (R180; log entry 25). -/
def dropReservations (m : Sparse (Option Nat)) (line : Nat) : Sparse (Option Nat) := m.filter fun x => x.2 ≠ some line

/-- A line is read or written in its slice (R173, R175): hit or miss is counted, the line becomes the most recent, a write
or an atomic makes it dirty and invalidates every copy of a core; units found uncorrectable withhold it (R177). Answers whether
the data may be used. -/
def State.touchLine (s : State) (hw : Hw) (granule : Nat) (write : Bool) (core : Option (Fin 8)) : State × Bool :=
  let addr := granule * 128
  let slice := sliceOf addr
  let held := s.lineAt granule
  let s : State := match held with
    | some _ => (s.bump 0x3400 0x20 slice 1).readLine hw granule
    | none =>
      let s := (s.bump 0x3400 0x21 slice 1).readErrors (hw.mem.filter fun e => e.granule == granule)
      match victim s.cache.lines addr with
      | some l => s.evict hw l
      | none => s
  let ok := s.intact [granule]
  let old := held.getD ⟨addr, false, [], [], false⟩
  let cores := match core with
    | some c => if write then [] else if c ∈ old.cores then old.cores else c :: old.cores
    | none => if write then [] else old.cores
  let line : Line :=
    { addr := addr
      dirty := old.dirty || (write && ok)
      dram := if old.dirty then old.dram else if write && ok then s.memRead addr 128 else []
      cores := cores
      bad := old.bad || (held.isSome && badUnits hw granule != []) }
  ({ s with cache := { lines := line :: otherLines s.cache.lines addr
                       reserved := if write then dropReservations s.cache.reserved addr else s.cache.reserved } }, ok)

/-- Lines touched one after the other. -/
def State.touchLines (s : State) (hw : Hw) (write : Bool) (core : Option (Fin 8)) : List Nat → State × Bool
  | [] => (s, true)
  | g :: t =>
    let a := s.touchLine hw g write core
    let b := a.1.touchLines hw write core t
    (b.1, a.2 && b.2)

/-- An access to granules (R173): those in the cached window are served by their slices, the others by DRAM, where `reads`
says which are read. Answers whether the data may be used. -/
def State.accessGranules (s : State) (hw : Hw) (all : List Nat) (reads : Nat → Bool) (write : Bool)
    (core : Option (Fin 8)) : State × Bool :=
  let cached := all.filter fun g => s.cacheable (g * 128)
  let read := all.filter fun g => !s.cacheable (g * 128) && reads g
  let found := hw.mem.filter fun e => decide (e.granule ∈ read)
  let s := if write then s.dramErrors found else s.readErrors found
  let r := s.touchLines hw write core cached
  (r.1, r.1.intact read && r.2)

/-- An access to n populated bytes at a local address (R173). A write reads DRAM only where it covers part of a 16 B half of
a codeword (R149). -/
def State.access (s : State) (hw : Hw) (a n : Nat) (write : Bool) (core : Option (Fin 8) := none) : State × Bool :=
  let partly (g : Nat) : Bool := decide (g * 128 < a ∧ a % 16 ≠ 0) || decide (a + n < g * 128 + 128 ∧ (a + n) % 16 ≠ 0)
  s.accessGranules hw (granulesOf a n) (fun g => !write || partly g) write core

/-- Bytes read at a populated local address: none when an uncorrectable error withholds them (R155). -/
def State.load (s : State) (hw : Hw) (a n : Nat) : State × Option (List Byte) :=
  let r := s.access hw a n false
  (r.1, if r.2 then some (r.1.memRead a n) else none)

/-- Bytes written at a populated local address. -/
def State.store (s : State) (hw : Hw) (a : Nat) (l : List Byte) : State :=
  let r := s.access hw a l.length true
  if r.2 then r.1.memWrite a l else r.1

/-- Enabled bytes laid over others. -/
def overlay (under : List Byte) (above : List (Option Byte)) : List Byte :=
  (under.zip (padTo none under.length above)).map fun x => x.2.getD x.1

/-- Some 16 B half of a granule has both enabled and disabled bytes, in a write of bytes at an address (R149). -/
def partHalf (a : Nat) (l : List (Option Byte)) (g : Nat) : Bool :=
  let at_ (i : Nat) : Bool := decide (a ≤ i) && ((l[i - a]?).map fun x => x.isSome).getD false
  (countFrom 0 8).any fun h =>
    let half := (countFrom (g * 128 + 16 * h) 16).map at_
    half.any (·) && !half.all (·)

/-- Enabled bytes written at a populated local address (R149). -/
def State.storeEnabled (s : State) (hw : Hw) (a : Nat) (l : List (Option Byte)) : State :=
  let r := s.accessGranules hw (granulesOf a l.length) (partHalf a l) true none
  if r.2 then r.1.memWrite a (overlay (r.1.memRead a l.length) l) else r.1

/-- Every slice writes back every dirty line and invalidates what it holds, with the cores' copies (R174, R193); lines that hold an
uncorrectable error are not written back. -/
def State.flushLines (s : State) (hw : Hw) : State :=
  let s := s.cache.lines.foldl (fun (s : State) l => s.evict hw l) s
  { s with cache := ⟨[], []⟩ }

/-! ### Channels -/

/-- A write that covers whole 16 B halves alone needs no read (R149). -/
def wholeHalves (w : List (Option Byte)) : Bool :=
  (chunks 16 w).all fun h => h.all Option.isSome || h.all Option.isNone

/-- The class that R142 gives the reads of a source, where it gives one. -/
def readClass : MemSource → Option MemClass
  | .core _ | .sequencer _ | .oven => some .p0
  | .pcie | .scrub => some .p3
  | .dma _ | .port _ => none

/-- A request's class (R142): every write is P3, a read is in the class that its source gives, or the one it carries. -/
def classOf (r : MemReq) : MemClass := if r.write.isSome then .p3 else (readClass r.source).getD r.cls

/-- The index of the first queued request that a test picks. -/
def firstIndex (q : List Queued) (p : Queued → Bool) : Option Nat := q.findIdx? p

/-- A request hits an open row of its bank (R143). -/
def Channel.hits (c : Channel) (r : MemReq) : Bool := c.rows.get none (bankOf r.addr) == some (rowOf r.addr)

/-- Among the requests of one class, the one that goes first: a row hit before the others, then the oldest (R143). -/
def Channel.ofClass (c : Channel) (p : Queued → Bool) : Option Nat :=
  match firstIndex c.queue fun x => p x && c.hits x.req with
  | some i => some i
  | none => firstIndex c.queue p

/-- The request that the channel issues next, and the writes left in the batch after it (R143 to R145); when an older
request to the same granule must come first, that one (R147). -/
def Channel.choose (c : Channel) : Option (Nat × Nat) :=
  let isWrite (x : Queued) : Bool := x.req.write.isSome
  let writes := (c.queue.filter isWrite).length
  let cls (k : MemClass) (x : Queued) : Bool := classOf x.req == k && !x.req.write.isSome
  let batch (n : Nat) : Option (Nat × Nat) := (firstIndex c.queue isWrite).map fun i => (i, n - 1)
  if c.batch ≠ 0 then batch c.batch
  else
    match c.queue.find? (·.promoted) with
    | some x => if isWrite x then batch writes else (firstIndex c.queue (·.promoted)).map fun i => (i, 0)
    | none =>
      match c.ofClass (cls .p0) with
      | some i => some (i, 0)
      | none =>
        match c.ofClass (cls .p1) with
        | some i => some (i, 0)
        | none =>
          match c.ofClass (cls .p2) with
          | some i => some (i, 0)
          | none => if writes ≠ 0 then batch writes else (c.ofClass (cls .p3)).map fun i => (i, 0)

/-- The request to issue before the chosen one: the oldest read of the same granule that entered before a chosen write
(R147). -/
def Channel.first (c : Channel) (i : Nat) : Nat :=
  match c.queue[i]? with
  | some x =>
    if x.req.write.isSome then
      ((firstIndex (c.queue.take i) fun y => y.req.addr == x.req.addr && y.req.write.isNone)).getD i
    else i
  | none => i

/-- The channel has carried out a request (R143, R147, R149, R154, R155): the data that a read found as it reached the channel
leaves to its source, unless a codeword is uncorrectable or a flit of the answer is lost. -/
def State.carryOut (s : State) (x : Queued) (hw : Hw) : State :=
  let granule := x.req.addr / 128
  let found := hw.mem.filter fun e => e.granule == granule
  match x.req.write with
  | some w => if wholeHalves w then s else s.dramErrors found
  | none =>
    let s := s.readErrors found
    if s.intact [granule] ∧ x.deliver then s.overFabric hw fun s => s.emit (.memData x.req.source x.req.addr x.data) else s

/-- A place in the fixed order of R148. -/
def sourceRank : MemSource → Nat
  | .dma c => c
  | .sequencer c => 16 + c
  | .oven => 32
  | .core n => 33 + n
  | .pcie => 41
  | .port p => 42 + p
  | .scrub => 50

/-- A request enters before another that arrives in the same cycle (R148): of a source's own, reads come first. -/
def requestBefore (a b : MemReq) : Bool :=
  decide (sourceRank a.source < sourceRank b.source) || (sourceRank a.source == sourceRank b.source && a.write.isNone && b.write.isSome)

/-- A request reaches the memory (R134, R147, R173): it is refused without memory there; at a cacheable address its slice serves it,
and the fetch of a missing line reaches the channel in the request's class; else it reaches the channel itself. Once a halt has
stopped the main domain, BAR2 alone reads, from DRAM (R167). A write's
bytes are in memory for every access that comes later, and a read takes those of every write that came earlier. -/
def State.enterRequest (s : State) (hw : Hw) (r : MemReq) : State :=
  let core := match r.source with
    | .core n => some n
    | _ => none
  let r := { r with cls := classOf r }
  if !populated r.addr 128 then
    match core with
    | some n => s.emit (.coreFault n)
    | none => s
  else
    let put (s : State) : State := match r.write with
      | some w => { s with mem := Sparse.writeMasked 0 s.mem r.addr w }
      | none => s
    if !s.power.mainClocks then
      if r.source = .pcie ∧ r.write = none then s.reachChannel ⟨r, false, s.memRead r.addr 128, true⟩ else s
    else if s.cacheable r.addr then
      let held := s.lineAt (r.addr / 128)
      let t := s.touchLine { hw with mem := [] } (r.addr / 128) r.write.isSome core
      let s := if t.2 then put t.1 else t.1
      if held.isNone then s.reachChannel ⟨{ r with write := none }, false, s.memRead r.addr 128, r.write.isNone⟩
      else if t.2 ∧ r.write.isNone then s.emit (.memData r.source r.addr (s.memRead r.addr 128))
      else s
    else (put s).reachChannel ⟨r, false, s.memRead r.addr 128, true⟩

/-- The requests of one cycle reach the memory in the order of R148. -/
def State.enterAll (s : State) (hw : Hw) (l : List MemReq) : State :=
  (sortBefore requestBefore l).foldl (fun (s : State) r => s.enterRequest hw r) s

/-- A promotion is counted (R145). -/
def State.countPromotion (s : State) (channel : Nat) : State := s.bump 0x3000 0x30 (channel / 32) 1

/-- The channel issues its choice (R143 to R145, R149), whose wait of 704 MCLK or more was a promotion; requests of the same cycle
enter before the write-back of a corrected granule does (R166). -/
def State.issueRequest (s : State) (channel wait : Nat) (hw : Hw) (arrivals : List MemReq) : State :=
  let c := s.channel channel
  match c.choose with
  | none => s.enterAll hw arrivals
  | some (i, batch) =>
    let j := c.first i
    match c.queue[j]? with
    | none => s.enterAll hw arrivals
    | some x =>
      let c' := { c with
        queue := c.queue.eraseIdx j
        batch := if j = i then batch else c.batch
        rows := c.rows.set none (bankOf x.req.addr) (some (rowOf x.req.addr)) }.admitted
      let s := (s.setChannel channel c').noteMax 0x3000 0x31 (channel / 32) (wait % 2 ^ 16)
      let s := if 704 ≤ wait ∧ x.promoted = false then s.countPromotion channel else s
      (s.enterAll hw arrivals).carryOut x hw

/-- The memory controllers take requests: from stage 5 of a start on (R101, R158), and in a halt that left memory
readable (R680); not once every clock has stopped (R90). -/
def State.memoryRuns (s : State) : Bool := s.sensors.refreshing && !s.power.clocksStopped

def execMemRequest (e : MemEvent) (s : State) : Host.Outcome State Fault Refusal :=
  .next (if s.memoryRuns then
      match e with
      | .enter arrivals hw => s.overFabric hw fun s => s.enterAll hw arrivals
      | .issue channel wait hw arrivals => s.issueRequest channel wait hw arrivals
    else s)

/-- The oldest request not yet promoted is promoted (R145). -/
def State.promote (s : State) (channel : Nat) : State :=
  let c := s.channel channel
  match firstIndex c.queue fun x => !x.promoted with
  | none => s
  | some i =>
    let q := match c.queue[i]? with
      | some x => setAt c.queue i { x with promoted := true }
      | none => c.queue
    (s.setChannel channel { c with queue := q }).countPromotion channel

def execStarvationPromotion (channel : Fin 512) (s : State) : Host.Outcome State Fault Refusal :=
  .next (if s.memoryRuns then s.promote channel else s)

/-- A refresh slot (R137, R139): the next bank's row is closed unless a queued request needs it again, and the channel
takes the interval that holds now. -/
def State.refreshBank (s : State) (channel : Nat) : State :=
  let c := s.channel channel
  let needed := c.queue.any fun x =>
    bankOf x.req.addr == c.nextBank && c.rows.get none c.nextBank == some (rowOf x.req.addr)
  s.setChannel channel { c with
    rows := if needed then c.rows else c.rows.erase c.nextBank
    nextBank := (c.nextBank + 1) % 16
    hot := s.sensors.hot }

def execRefreshSlot (channel : Fin 512) (s : State) : Host.Outcome State Fault Refusal :=
  .next (if s.memoryRuns then s.refreshBank channel else s)

/-- An alert of a layer (R151, R152): an attempt of the retry event in progress, or of a new one; during the fourth
attempt the event is exhausted. -/
def State.parityAlert (s : State) (channel : Nat) (replayed writeData : Bool) : State :=
  let c := s.channel channel
  let done := if replayed then c.attempts else 0
  if done < 4 then (s.setChannel channel { c with attempts := done + 1 }).bump 0x3000 0x14 (channel / 32) 1
  else
    let record := channel + writeData.toNat * 2 ^ 9
    let s := (s.setChannel channel { c with attempts := 0 }).setStored 0x3000 0x15 0 record
    s.classD haltMemRetry channel channel (toBytes 4 record ++ [0, 0, 0, 0])

def execParityRetry (channel : Fin 512) (replayed writeData : Bool) (s : State) : Host.Outcome State Fault Refusal :=
  .next (if s.memoryRuns then s.parityAlert channel replayed writeData else s)

/-! ### The orderly halt -/

/-- A halt ends the wait of every request (R145). -/
def State.endWaits (s : State) : State :=
  s.memctl.channels.foldl (fun (s : State) x => s.setChannel x.1 { x.2 with queue := [], outside := [], batch := 0 }) s

/-- A class D halt, steps 1 to 5 of R680; errors that the write-back meets hold their lines back (R193). -/
def State.orderlyHalt (s : State) (hw : Hw) : State :=
  match primaryCause s.life.causes with
  | none => s
  | some c =>
    let s := s.raiseHalts (some c) s.life.causes
    let s := s.stopPorts (some 1)
    let s := (s.writeHaltReason c).loseWork.endWaits
    let s := (s.enterState .halted 3).msix 0
    let s := if haltReadable c.code then s.flushLines hw else { s.stopRefresh with cache := ⟨[], []⟩ }
    let s := s.setLed 0x2000 0x20 0 0
    -- the lane PLLs stop with the port clocks and read as not locked (log entry 130)
    { s with power := { s.power with mainClocks := false, laneLock := 0 } }

/-! ### The patrol scrub -/

/-- Granules of a chimney, and of the device. -/
def granulesPerChimney : Nat := 3 * 2 ^ 24

/-- The n-th granule of a pass, by address (log entry 26). -/
def scrubGranule (n : Nat) : Nat := n / granulesPerChimney * 2 ^ 26 + n % granulesPerChimney

/-- The scrub reads its next granule (R157), as P3 traffic that gives way to all other; the last one ends the pass. -/
def State.scrub (s : State) (errors : List CodewordError) : State :=
  let n := s.memctl.scrub
  let g := scrubGranule n
  let s := s.readErrors (errors.filter fun e => e.granule == g)
  let last := n + 1 = 16 * granulesPerChimney
  let s := { s with memctl := { s.memctl with scrub := if last then 0 else n + 1 } }
  if last then s.bump 0x3000 0x32 0 1 else s

/-- The patrol scrub runs in READY and IN_SERVICE, the states in which the memory serves (DESIGN CHOICE, log entry 142). -/
def execScrubRead (errors : List CodewordError) (s : State) : Host.Outcome State Fault Refusal :=
  .next (if s.serving then s.scrub errors else s)

end Sys2Proof.Machine
end

