-- ==== Sys2Proof/Machine/Queue.lean ====
section
/-! DEFINITION. Machine/Queue.lean: what every queue command shares (chapter 12): records and their headers, event
counters, whose turn it is, the issue of a record, its completion, queue faults. -/

namespace Sys2Proof.Machine

/-! ### Queues -/

/-- A queue's registers replaced: a queue as at reset is not listed. -/
def State.setQueue (s : State) (q : Nat) (x : Queue) : State :=
  { s with front := { s.front with
      queues := if x = Queue.blank q then s.front.queues.erase q else s.front.queues.put q x } }

/-- What the Oven keeps of a queue. -/
def State.work (s : State) (q : Nat) : QueueWork := s.front.work.get QueueWork.blank q

/-- What the Oven keeps of a queue replaced. -/
def State.setWork (s : State) (q : Nat) (x : QueueWork) : State :=
  { s with front := { s.front with work := s.front.work.set QueueWork.blank q x } }

/-- A kernel queue (R401). -/
def isKernel (q : Nat) : Bool := decide (q < 8)

/-- A CNT register advanced (R12; log entry 18). -/
def advanceCnt (v : Word) (k : Nat) : Word := BitVec.ofNat 32 (pastTop 32 (v.toNat + k))

/-- PROGRESS advances (R433). -/
def State.progress (s : State) (q k : Nat) : State :=
  let x := s.queue q
  s.setQueue q { x with progress := advanceCnt x.progress k }

/-- The records of a ring by its LOG2 register (R402, R403, R457): 4 to `hi`; for any other value the spec states no ring, and
its size is free (log entry 27). -/
def ringRecords (hi v : Nat) : Nat := 2 ^ if 4 ≤ v ∧ v ≤ hi then v else Config.ringLog2 v

/-- Records of the ring (R403). -/
def Queue.ringSize (x : Queue) : Nat := ringRecords 16 x.ringLog2.toNat

/-- The address of record i (R403). -/
def Queue.recordAddress (x : Queue) (i : Nat) : Nat := x.ringBase.toNat + 64 * (i % x.ringSize)

/-- The local address of a global one, when it lies on this device (R131). -/
def State.localOf (s : State) (g : Nat) : Option Nat :=
  if g / 2 ^ 44 = s.uhleg.devId.toNat then some (g % 2 ^ 44) else none

/-- The local address of n cacheable bytes at a global address. -/
def State.cacheableAt (s : State) (g n : Nat) : Option Nat :=
  match s.localOf g with
  | some a => if s.allCacheable a n then some a else none
  | none => none

/-- The front end and the cells run: from the runtime's boot in stage 8 on (R101). -/
def State.frontRuns (s : State) : Bool := s.serving || (s.life.state == .starting && decide (8 ≤ s.life.stage))

/-! ### Records -/

/-- The number of n bytes at an offset of a record (R405). -/
def recNat (r : List Byte) (a n : Nat) : Nat := imageNat r a n

/-- The header of a record (R405); reserved bits are ignored (R10). -/
def headerOf (r : List Byte) : Header :=
  { barrier := bit (recNat r 1 1) 0, irq := bit (recNat r 1 1) 1, mask := BitVec.ofNat 16 (recNat r 2 2)
    enable := bit (recNat r 4 2) 15, counter := BitVec.ofNat 12 (recNat r 4 2) }

/-- The opcodes of R407. -/
def opcodes : List Nat :=
  [0x00, 0x01, 0x02, 0x03, 0x04, 0x05, 0x06, 0x07, 0x08, 0x09, 0x0A, 0x0B, 0x10, 0x11, 0x20, 0x21, 0x22, 0x23, 0x24,
    0x30, 0x31, 0x38, 0x39, 0x40, 0x41, 0x42]

/-- The opcodes that only a kernel queue may use (R407, R413). -/
def kernelOpcodes : List Nat := [0x09, 0x0A, 0x0B, 0x42]

/-- The codes of the atomic operations (R178). -/
def atomicCodes : List Nat := [0x01, 0x02, 0x03, 0x04, 0x05, 0x06, 0x07, 0x08, 0x09, 0x0A, 0x0B, 0x0C, 0x0D, 0x10, 0x11]

/-- The codes of the SIEVE sub-operations (R410). -/
def sieveCodes : List Nat :=
  [0x01, 0x02, 0x03, 0x04, 0x05, 0x06, 0x07, 0x08, 0x09, 0x0A, 0x0B, 0x0C, 0x0D, 0x0E, 0x0F, 0x10, 0x11, 0x12, 0x13,
    0x15, 0x16, 0x17]

/-- The code of a record that names no operation (R407, R410, R180, log entry 28), if it names none. -/
def undefinedCode (r : List Byte) : Option Nat :=
  let op := recNat r 0 1
  if op ∉ opcodes then some op
  else if op = 0x11 ∧ recNat r 8 1 ∉ atomicCodes then some (recNat r 8 1)
  else if op = 0x22 ∧ recNat r 8 1 ∉ sieveCodes then some (recNat r 8 1)
  else none

/-! ### Sub-queues -/

/-- The cells of a mask, in ascending order. -/
def cellsOf (mask : BitVec 16) : List Nat := (countFrom 0 16).filter fun c => mask.getLsbD c

/-- The commands of a queue placed in a cell that has not begun them, the oldest first (R406). -/
def State.subQueue (s : State) (c q : Nat) : List SubEntry := s.front.subs.get [] (c * 64 + q)

/-- The sub-queue of a queue in a cell replaced. -/
def State.setSubQueue (s : State) (c q : Nat) (l : List SubEntry) : State :=
  { s with front := { s.front with subs := s.front.subs.set [] (c * 64 + q) l } }

/-- Every cell that a record names has room in the queue's sub-queue (R406). -/
def State.subRoom (s : State) (q : Nat) (r : List Byte) : Bool :=
  (cellsOf (headerOf r).mask).all fun c => decide ((s.subQueue c q).length < 64)

/-! ### Event counters -/

/-- A counter. -/
def State.counter (s : State) (c : Nat) : Counter := s.front.counters.get Counter.blank c

/-- A counter replaced. -/
def State.setCounter (s : State) (c : Nat) (x : Counter) : State :=
  { s with front := { s.front with counters := s.front.counters.set Counter.blank c x } }

/-- A counter advanced, saturating at 2^63 − 1 (R416). -/
def State.advanceCounter (s : State) (c n : Nat) : State :=
  let x := s.counter c
  s.setCounter c { x with value := BitVec.ofNat 63 (min (2 ^ 63 - 1) (x.value.toNat + n)) }

/-- A counter set, its error bit cleared (R416). -/
def State.setEvent (s : State) (c v : Nat) : State := s.setCounter c ⟨BitVec.ofNat 63 v, false⟩

/-- A counter's error bit set (R416). -/
def State.errCounter (s : State) (c : Nat) : State := s.setCounter c { s.counter c with err := true }

/-- A WAIT on the counter for a target completes (R415). -/
def State.reached (s : State) (c target : Nat) : Bool :=
  decide (target ≤ (s.counter c).value.toNat) || (s.counter c).err

/-- A counter lies in a queue's range (R414). -/
def State.inRange (s : State) (q c : Nat) : Bool :=
  let x := s.queue q
  decide (x.eventBase.toNat ≤ c) && decide (c < x.eventBase.toNat + x.eventCount.toNat)

/-! ### Bakes -/

/-- Every node that an edge into this one comes from has completed (R420). -/
def Bake.ready (b : Bake) (i : Nat) : Bool :=
  b.nodes[i]? == some .unissued && b.edges.all fun e => e.2 != i || b.nodes[e.1]? == some .done

/-- The lowest ready node (R420). -/
def Bake.next (b : Bake) : Option Nat := (countFrom 0 b.nodes.length).find? b.ready

/-- Every node has been issued (R423). -/
def Bake.issued (b : Bake) : Bool := b.nodes.all (· != .unissued)

/-- A bake of a queue by its number. -/
def QueueWork.bake? (w : QueueWork) (n : Nat) : Option Bake := w.bakes.find? fun b => b.number == n

/-- A bake replaced in its place. -/
def QueueWork.setBake (w : QueueWork) (b : Bake) : QueueWork :=
  { w with bakes := w.bakes.map fun x => if x.number = b.number then b else x }

/-- Nothing of the queue that was issued remains (R406). -/
def QueueWork.quiet (w : QueueWork) : Bool := w.inFlight.isEmpty && w.bakes.isEmpty && w.waits.isEmpty

/-- A WAIT of the ring is pending. -/
def QueueWork.ringWaits (w : QueueWork) : Bool :=
  w.waits.any fun x => match x.place with
    | .ring _ => true
    | .node _ _ => false

/-- Some queue runs a bake of a recipe (R422). -/
def State.bakes (s : State) (recipe : Nat) : Bool :=
  (countFrom 0 64).any fun q => (s.work q).bakes.any fun b => b.recipe == recipe

/-! ### Whose turn it is -/

/-- The state of a target queue in which a window or range changes (R414). -/
def changeable (st : QState) : Bool := st == .disabled || st == .idle || st == .faulted

/-- What is wrong with a window or range that a QUEUE_CTL names (R414): the byte offset of the field. -/
def State.spanFault (s : State) (action target first count : Nat) : Option Nat :=
  if 64 ≤ target then some 8
  else if action = 1 then
    if isKernel target then some 8
    else if 256 < first + count ∨ (0 < count ∧ 256 ≤ first) then some 12
    else if (countFrom 8 56).any fun q =>
        q != target && overlaps first count (s.queue q).laneFirst.toNat (s.queue q).laneCount.toNat then some 12
    else none
  else if 4096 < first + count then some 12
  else if (countFrom 0 64).any fun q =>
      q != target && overlaps first count (s.queue q).eventBase.toNat (s.queue q).eventCount.toNat then some 12
  else none

/-- A record that is next may be issued now (R406, R414, R422, R428): a BARRIER and a PARK wait for every earlier record and
bake, a RECIPE_LOAD or RECIPE_DROP for bakes of its id, a QUEUE_CTL that changes a window or range for its target, a cell
command for room in its sub-queues; one that will be refused waits for nothing else. -/
def State.mayGo (s : State) (q : Nat) (r : List Byte) : Bool :=
  let w := s.work q
  let op := recNat r 0 1
  let action := recNat r 9 1
  (!bit (recNat r 1 1) 0 || w.quiet) && (op != 0x08 || w.quiet) && (decide (op < 0x10) || s.subRoom q r) &&
    (!isKernel q || !(op == 0x09 || op == 0x0A) || !s.bakes (recNat r 8 2)) &&
    (!isKernel q || op != 0x0B || !(action == 1 || action == 2) || changeable (s.queue (recNat r 8 1)).state ||
      (s.spanFault action (recNat r 8 1) (recNat r 12 2) (recNat r 14 2)).isSome)

/-- The queue may fetch the record at HEAD (R403, R406, R423, R550), whatever it is. -/
def State.mayFetch (s : State) (q : Nat) : Bool :=
  let x := s.queue q
  let w := s.work q
  x.enable && (x.state == .idle || x.state == .running || x.state == .waiting) && !w.held && w.proofer.isNone &&
    x.head != x.tail && !w.ringWaits && w.bakes.all Bake.issued && (!x.ringHost || s.pcie.up)

/-- The bytes of the record at HEAD, when the ring lies in cacheable memory. -/
def State.headRecord (s : State) (q : Nat) : Option (List Byte) :=
  let x := s.queue q
  (s.cacheableAt (x.recordAddress x.head.toNat) 64).map fun a => s.memRead a 64

/-- A node of a bake is ready (R420), and may go: a QUEUE_CTL node may have to wait for its target (R414). -/
def State.nodeReady (s : State) (q : Nat) : Bool :=
  (s.work q).bakes.any fun b => match b.next with
    | some i => ((b.records[i]?).map fun r => s.mayGo q r).getD false
    | none => false

/-- A wake is pending and none is being served (R429). -/
def State.wakeReady (s : State) (q : Nat) : Bool :=
  let w := s.work q
  (s.queue q).enable && (s.queue q).state == .parked && w.proofer.isSome && w.bakes.isEmpty && (s.queue q).wakes != 0

/-- The queue is runnable (R431). -/
def State.runnable (s : State) (q : Nat) : Bool :=
  let x := s.queue q
  x.enable && x.state != .resetting && x.state != .faulted && !(s.work q).held &&
    ((s.mayFetch q && (x.ringHost || ((s.headRecord q).map fun r => s.mayGo q r).getD true)) ||
      s.nodeReady q || s.wakeReady q)

/-- The queue that the Oven serves next (R431): the one it serves until its slice ends or it has nothing to run, then the
next runnable one in ascending order. -/
def State.turn (s : State) : Option Nat :=
  let cur := s.front.served.val
  if s.runnable cur && !s.front.sliceOver then some cur
  else ((countFrom (cur + 1) 64).map fun n => n % 64).find? s.runnable

/-- The Oven serves a queue: its slice begins when it was not being served or its slice had ended. -/
def State.giveTurn (s : State) (q : QueueId) : State := { s with front := { s.front with served := q, sliceOver := false } }

/-- A queue that is served and not runnable yields at once (R431): it is not served further when it becomes runnable again. -/
def State.yield (s : State) : State :=
  if s.runnable s.front.served.val then s else { s with front := { s.front with sliceOver := true } }

/-! ### The state of a queue -/

/-- STATE as the rules give it from what the queue has in hand (R402, R403, R428; log entry 29). -/
def State.settle (s : State) (q : Nat) : State :=
  let x := s.queue q
  let w := s.work q
  let st : QState :=
    if x.state = .resetting ∨ x.state = .faulted then x.state
    else if !x.enable && w.quiet then .disabled
    else if w.proofer.isSome && w.bakes.isEmpty then .parked
    else if !w.waits.isEmpty && w.inFlight.isEmpty && !s.nodeReady q then .waiting
    else if !w.quiet || x.head != x.tail then .running
    else .idle
  s.setQueue q { x with state := st }

/-! ### Queue faults -/

/-- What a failed check says (R435): cause, detail, address concerned, and the cell that found it, or the Oven. -/
structure QFault where
  cause : Nat
  detail : Nat
  addr : Nat
  cell : Nat
  deriving DecidableEq, Repr

/-- Causes of R435. -/
def badOpcode : Nat := 1
def badPrivilege : Nat := 2
def badOperand : Nat := 3
def badLanes : Nat := 4
def badAddress : Nat := 5
def badCaching : Nat := 6
def badDelta : Nat := 7
def badKv : Nat := 8
def badReed : Nat := 9
def badMerge : Nat := 10
def badRecipe : Nat := 11
def badEvent : Nat := 12
def ringFull : Nat := 13
def badTarget : Nat := 14
def storeFull : Nat := 15
def stalledCause : Nat := 16
def commanded : Nat := 17

/-- A fault found by the Oven. -/
def ovenFault (cause detail : Nat) (addr : Nat := 0) : QFault := ⟨cause, detail, addr, 0xFF⟩

/-- The operand at a byte offset is bad (R435). -/
def operandFault (offset : Nat) : QFault := ovenFault badOperand offset

/-- The 32 bytes of a queue fault record (R435). -/
def faultRecord (q opcode recipe node position : Nat) (f : QFault) : List Byte :=
  [byte f.cause, byte opcode, byte f.cell, byte q] ++ toBytes 2 recipe ++ toBytes 2 node ++ toBytes 4 position ++
    [0, 0, 0, 0] ++ toBytes 8 f.detail ++ toBytes 8 f.addr

/-- What a fault leaves in the Ledger beside its record (R180, R187, R197, R262, R312, R389). -/
def State.noteFault (s : State) (opcode : Nat) (f : QFault) : State :=
  if f.cause = badCaching then (if opcode = 0x11 ∨ opcode = 0x31 then s.bump 0x3400 0x31 0 1 else s)
  else if f.cause = badOpcode ∧ opcode = 0x11 then s.bump 0x3400 0x31 0 1
  else if f.cause = badMerge then s.bump 0x3400 0x42 0 1
  else if f.cause = badDelta then (s.bump (0x4000 + f.cell) 0x41 0 1).setLed (0x4000 + f.cell) 0x42 0 f.detail
  else if f.cause = badKv then (s.bump 0x5000 0x26 0 1).setLed 0x5000 0x27 0 f.detail
  else if f.cause = badReed then s.setLed 0x6800 0x15 0 f.detail
  else s

/-- A queue fault, step 1 of the guilty-queue reset (R435, R436): RESETTING, and the record. A fault in a queue that is
RESETTING or FAULTED is not recorded again (R440). -/
def State.faultQueue (s : State) (q opcode recipe node position : Nat) (f : QFault) : State :=
  let x := s.queue q
  if x.state = .resetting ∨ x.state = .faulted then s
  else
    let r := faultRecord q opcode recipe node position f
    let s := s.noteFault opcode f
    ((s.setQueue q { x with state := .resetting, faultRecord := r }).setLed 0x6000 0x31 0 (ofBytes r)).yield

/-- Recipe, node and ring position that a fault record names for a place (R435). -/
def State.whereIs (s : State) (q : Nat) : Place → Nat × Nat × Nat
  | .ring i => (0xFFFF, 0xFFFF, i % 2 ^ 32)
  | .node b i =>
    match (s.work q).bake? b with
    | some x => (x.recipe, i, x.position)
    | none => (0xFFFF, i, 0)

/-- A fault of the record at a place. -/
def State.faultAt (s : State) (q : Nat) (place : Place) (opcode : Nat) (f : QFault) : State :=
  let w := s.whereIs q place
  s.faultQueue q opcode w.1 w.2.1 w.2.2 f

/-- The checks of R411, in order, that every record shares: privilege of the opcode, cell mask, completion counter. `maskOk`
says whether the opcode allows the mask. -/
def State.headerCheck (s : State) (q opcode : Nat) (h : Header) (maskOk : Bool) (privileged : Bool) : Option QFault :=
  if (kernelOpcodes.contains opcode || privileged) && !isKernel q then some (ovenFault badPrivilege 0)
  else if !maskOk then some (operandFault 2)
  else if h.enable && !isKernel q && !s.inRange q h.counter.toNat then some (ovenFault badEvent h.counter.toNat)
  else none

/-- The fault of a record that no command spells (R407, R408, R410, R411; log entry 28): no operation has its code, or it is
a QUEUE_CTL or a STAT without a defined action. -/
def State.refusedRecord (s : State) (q : Nat) (r : List Byte) : Option QFault :=
  let h := headerOf r
  match undefinedCode r with
  | some c => some (ovenFault badOpcode c)
  | none =>
    if recNat r 0 1 = 0x0B ∧ !between 1 (recNat r 9 1) 6 then
      some ((s.headerCheck q 0x0B h (h.mask == 0) false).getD (operandFault 9))
    else if recNat r 0 1 = 0x24 ∧ 2 < recNat r 8 1 then
      some ((s.headerCheck q 0x24 h (h.mask != 0) false).getD (operandFault 8))
    else none

/-! ### Completion -/

/-- A header's completion counter and interrupt, which the host and the cores take (R405, R450, R552). -/
def State.signal (s : State) (q : Nat) (h : Header) (failed : Bool := false) : State :=
  let s := if h.enable then (if failed then s.errCounter h.counter.toNat else s.advanceCounter h.counter.toNat 1) else s
  if h.irq then (s.interruptCores (1 + q)).msix (8 + q) else s

/-- COMPLETED advances (R402). -/
def State.countCompleted (s : State) (q : Nat) : State :=
  let x := s.queue q
  s.setQueue q { x with completed := advanceCnt x.completed 1 }

/-- A bake whose nodes have all completed ends (R423, R429, R433): it is counted, and the header of its BAKE, or of the PARK,
is signalled; a cancelled bake sets the error bit of its counter instead (R418). -/
def State.endBake (s : State) (q : Nat) (b : Bake) : State :=
  if b.nodes.all (· == .done) then
    let w := s.work q
    let s := s.setWork q { w with bakes := w.bakes.filter fun x => x.number != b.number }
    let s := if b.wake then s else s.progress q 1
    ((s.countCompleted q).bump 0x6000 0x33 q 1).signal q b.header b.cancelled
  else s

/-- A record or node has completed (R405, R406, R433). -/
def State.finish (s : State) (q : Nat) (place : Place) (h : Header) : State :=
  let s := (s.progress q 1).signal q h
  match place with
  | .ring _ => (s.countCompleted q).settle q
  | .node n i =>
    match (s.work q).bake? n with
    | some b =>
      let b := { b with nodes := setAt b.nodes i .done }
      ((s.setWork q ((s.work q).setBake b)).endBake q b).settle q
    | none => s.settle q

/-! ### Issue -/

/-- How a command ends: at once in the Oven; later, when the answers it waits for have come; or as its own rules say: a command
of the cells is in flight when its work begins. -/
inductive Ending where
  | now
  | later (waitsFor : Nat)
  | own
  deriving DecidableEq, Repr

/-- What a command did: the state, the fault that a unit or the Oven met, and how it ends. -/
structure Done where
  state : State
  fault : Option QFault
  ending : Ending

/-- The command did its work. -/
def Done.ok (s : State) (e : Ending) : Done := ⟨s, none, e⟩

/-- The command waits for data that an uncorrectable error withholds: it never completes (R155). -/
def Done.stuck (s : State) : Done := ⟨s, none, .later 1⟩

/-- The command was refused, or ended by a fault. -/
def Done.bad (s : State) (f : QFault) : Done := ⟨s, some f, .own⟩

/-- The record at a place that the Oven may issue now (R403, R406, R420, R431). A ring in host memory is read through the
endpoint, and its record is the first answer of the host; a failed fetch is a fault (R549). -/
inductive Fetched where
  | none
  | failed
  | record (r : List Byte) (hw : Hw)
  deriving DecidableEq, Repr

/-- The fetch of the record at a place. -/
def State.fetch (s : State) (x : Issue) : Fetched :=
  if s.frontRuns ∧ s.turn = some x.queue.val then
    match x.place with
    | .ring i =>
      let q := s.queue x.queue
      if s.mayFetch x.queue ∧ i = q.head.toNat then
        if q.ringHost then
          match x.hw.host with
          | .data r :: rest =>
            if s.mayGo x.queue r ∧ r.length = 64 then .record r { x.hw with host := rest } else .none
          | .failed :: _ => .failed
          | _ => .none
        else
          match s.headRecord x.queue with
          | some r => if s.mayGo x.queue r then .record r x.hw else .none
          | none => .none
      else .none
    | .node n i =>
      match (s.work x.queue).bakes.find? fun b => b.next.isSome with
      | some b =>
        if b.number = n ∧ b.next = some i then
          match b.records[i]? with
          | some r => if s.mayGo x.queue r then .record r x.hw else .none
          | none => .none
        else .none
      | none => .none
  else .none

/-- The record at a place leaves the ring, or the node is issued (R402, R406, R433). -/
def State.take (s : State) (q : QueueId) : Place → State
  | .ring _ =>
    let s := s.giveTurn q
    let x := s.queue q
    let s := s.setQueue q { x with head := x.head + 1 }
    let w := s.work q
    s.setWork q { w with
      submissions := w.submissions.filter fun p => p != x.head.toNat
      blocks := w.blocks.filter fun b => decide ((BitVec.ofNat 32 b.position - x.head).toNat < (x.tail - x.head).toNat) }
  | .node n i =>
    let s := s.giveTurn q
    match (s.work q).bake? n with
    | some b => s.setWork q ((s.work q).setBake { b with nodes := setAt b.nodes i .issued })
    | none => s

/-- A host-bound request failed (R549). -/
def State.hostFailure (s : State) : State :=
  { s with pcie := { s.pcie with hostReqErr := true, hostErrCount := advanceCnt s.pcie.hostErrCount 1 } }

/-- Bytes written to host memory: sent, or failed with the link down or at an address that is no host bus address
(R549). -/
def State.hostWrite (s : State) (addr : Nat) (bytes : List Byte) : State × Bool :=
  if s.pcie.up ∧ addr + bytes.length ≤ 2 ^ 47 then (s.emit (.hostWrite addr bytes), true) else (s.hostFailure, false)

/-- A command put in flight (R406). -/
def State.fly (s : State) (q : QueueId) (f : InFlight) : State :=
  let w := s.work q
  s.setWork q { w with inFlight := w.inFlight ++ [f] }

/-- The commands in flight at a place changed. -/
def State.mapFlight (s : State) (q : QueueId) (place : Place) (change : InFlight → InFlight) : State :=
  let w := s.work q
  s.setWork q { w with inFlight := w.inFlight.map fun f => if f.place = place then change f else f }

/-- A command of the cells as it is put in flight. -/
def InFlight.placed (x : Issue) (opcode : Nat) (r : List Byte) : InFlight :=
  ⟨x.place, opcode, x.header, 0, [], none, [], r, [], [], []⟩

/-- A command of the cells is issued: it is placed in the sub-queue of each cell it names (R406). -/
def State.placeRecord (s : State) (x : Issue) (opcode : Nat) (r : List Byte) : State :=
  (cellsOf x.header.mask).foldl (fun (s : State) c => s.setSubQueue c x.queue (s.subQueue c x.queue ++ [⟨x.place, r⟩]))
    (s.fly x.queue (.placed x opcode r))

/-- The end of an issue: a fault is recorded, a command that ended at once completes, another is in flight. A record of the
Oven that was refused has made no progress (R411, R433). -/
def State.conclude (x : Issue) (opcode : Nat) (d : Done) : State :=
  match d.fault with
  | some f => d.state.faultAt x.queue x.place opcode f
  | none =>
    let s := if opcode < 0x10 then d.state.progress x.queue 1 else d.state
    match d.ending with
    | .now => (s.finish x.queue x.place x.header).yield
    | .later n =>
      ((s.fly x.queue { InFlight.placed x opcode [] with waitsFor := n }).settle x.queue).yield
    | .own => (s.settle x.queue).yield

/-- The read of the record at a place (R173, R403): one of a ring of this device is read through its slice, and is not
delivered when an uncorrectable error or a lost flit withholds it (R155, R177, R233). -/
def State.readRecord (s : State) (x : Issue) : State × Bool :=
  let whole := !lostFlit x.hw x.header.mask
  match x.place with
  | .ring i =>
    let q := s.queue x.queue
    if q.ringHost then (s, whole)
    else
      match s.cacheableAt (q.recordAddress i) 64 with
      | some a =>
        let l := s.load x.hw a 64
        (l.1, whole && l.2.isSome)
      | none => (s, whole)
  | .node _ _ => (s, whole)

/-- The issue of the record that a command names (R406, R411): it must stand at its place, be next, and be spelled by the
command's operands; a record that no command spells is refused whatever command names it. `spells` compares the operands; `check` is what the Oven checks; `run` is the command's work. -/
def State.issue (s : State) (x : Issue) (opcode : Nat) (spells : List Byte → Bool)
    (check : State → List Byte → Option QFault) (run : Hw → State → Done) : State :=
  match s.fetch x with
  | .none => s
  | .failed => (s.hostFailure.take x.queue x.place).faultAt x.queue x.place 0xFF
      (ovenFault badAddress 0 ((s.queue x.queue).recordAddress (s.queue x.queue).head.toNat))
  | .record r hw =>
    let t := s.readRecord x
    if !t.2 then t.1.meet hw
    else
      let s' := t.1.take x.queue x.place
      match s.refusedRecord x.queue r with
      | some f => (s'.faultAt x.queue x.place (recNat r 0 1) f).meet hw
      | none =>
      if recNat r 0 1 = opcode ∧ headerOf r = x.header ∧ spells r then
        match check s r with
        | some f => (s'.faultAt x.queue x.place opcode f).meet hw
        | none =>
          let s' := if opcode < 0x10 then s' else (s'.progress x.queue 1).placeRecord x opcode r
          (State.conclude x opcode (run hw s')).meet hw
      else s

end Sys2Proof.Machine
end

