-- ==== Sys2Proof/Machine/Operands.lean ====
section
/-! DEFINITION. Machine/Operands.lean: the operands of every command record, at the bytes of R408 and R409. Reserved bytes
are ignored (R10). -/

namespace Sys2Proof.Machine

/-- A byte of a record. -/
def rec8 (r : List Byte) (a : Nat) : Byte := BitVec.ofNat 8 (recNat r a 1)
/-- A 16-bit field of a record. -/
def rec16 (r : List Byte) (a : Nat) : Half := BitVec.ofNat 16 (recNat r a 2)
/-- A 32-bit field of a record. -/
def rec32 (r : List Byte) (a : Nat) : Word := BitVec.ofNat 32 (recNat r a 4)
/-- A 64-bit field of a record. -/
def rec64 (r : List Byte) (a : Nat) : DWord := BitVec.ofNat 64 (recNat r a 8)

/-- WAIT (R408). -/
def readWait (r : List Byte) : WaitOps := ⟨rec16 r 8, rec8 r 10, rec64 r 16⟩
/-- ADVANCE and SET_EVENT (R408). -/
def readEvent (r : List Byte) : EventOps := ⟨rec16 r 8, rec64 r 16⟩
/-- WRITE (R408). -/
def readWrite (r : List Byte) : WriteOps := ⟨rec8 r 8, rec8 r 9, rec64 r 16, rec64 r 24⟩
/-- BAKE (R408). -/
def readBake (r : List Byte) : BakeOps := ⟨rec16 r 8, rec8 r 10, rec64 r 16⟩
/-- ENQUEUE (R408). -/
def readEnqueue (r : List Byte) : EnqueueOps := ⟨rec8 r 8, rec8 r 9, rec16 r 10, rec64 r 16⟩
/-- RING (R408). -/
def readRing (r : List Byte) : RingOps := ⟨rec8 r 8, rec16 r 10⟩
/-- PARK (R408). -/
def readPark (r : List Byte) : ParkOps := ⟨rec16 r 8, rec8 r 10, rec16 r 12, rec64 r 16⟩
/-- RECIPE_LOAD (R408). -/
def readRecipeLoad (r : List Byte) : RecipeLoadOps := ⟨rec16 r 8, rec32 r 12, rec64 r 16⟩
/-- QUEUE_CTL (R408). -/
def readControl (r : List Byte) : ControlOps := ⟨rec8 r 8, rec16 r 12, rec16 r 14⟩
/-- DMA_COPY (R409). -/
def readDma (r : List Byte) : DmaOps :=
  ⟨rec8 r 8, rec8 r 9, rec16 r 10, rec32 r 12, rec64 r 16, rec64 r 24, rec32 r 32, rec32 r 36, rec16 r 40⟩
/-- ATOMIC (R409). -/
def readAtomic (r : List Byte) : AtomicOps :=
  ⟨rec8 r 9, rec32 r 12, rec64 r 16, rec64 r 24, rec64 r 32, rec16 r 40, rec16 r 42, rec16 r 44, rec16 r 46⟩
/-- KNEAD (R409). -/
def readKnead (r : List Byte) : KneadOps :=
  ⟨rec8 r 8, rec8 r 9, rec8 r 10, rec8 r 11, rec16 r 12, rec16 r 14, rec16 r 16, rec32 r 20, rec32 r 24, rec32 r 28,
    rec32 r 32, rec32 r 36, rec32 r 40⟩
/-- DRAIN (R409). -/
def readDrain (r : List Byte) : DrainOps := ⟨rec8 r 8, rec16 r 12, rec16 r 14, rec16 r 16, rec32 r 20, rec32 r 24⟩
/-- SIEVE (R409). -/
def readSieve (r : List Byte) : SieveOps :=
  ⟨rec8 r 9, rec8 r 10, rec8 r 11, rec32 r 12, rec16 r 16, rec32 r 20, rec32 r 24, rec32 r 28, rec32 r 32, rec32 r 36,
    rec32 r 40, rec32 r 44, rec16 r 48⟩
/-- ROPE (R409). -/
def readRope (r : List Byte) : RopeOps :=
  ⟨rec8 r 8, rec8 r 9, rec16 r 10, rec16 r 12, rec16 r 14, rec16 r 16, rec16 r 18, rec32 r 20, rec32 r 24, rec32 r 28,
    rec32 r 32, rec32 r 36, rec32 r 40⟩
/-- STAT (R409). -/
def readStat (r : List Byte) : StatOps := ⟨rec16 r 12, rec16 r 14, rec32 r 16⟩
/-- KV_APPEND (R409). -/
def readAppend (r : List Byte) : AppendOps := ⟨rec8 r 8, rec16 r 10, rec32 r 12, rec16 r 16, rec32 r 20, rec64 r 24⟩
/-- KV_ATTEND (R409). -/
def readAttend (r : List Byte) : AttendOps :=
  ⟨rec8 r 8, rec16 r 10, rec16 r 12, rec16 r 14, rec64 r 16, rec32 r 24, rec32 r 28, rec32 r 32, rec32 r 36, rec32 r 40⟩
/-- BUILD_TABLES and PACK_DELTAS (R409). -/
def readDelta (r : List Byte) : DeltaOps :=
  ⟨rec8 r 8, rec8 r 9, rec8 r 10, rec32 r 12, rec32 r 16, rec32 r 20, rec32 r 24, rec64 r 32, rec64 r 40, rec64 r 48,
    rec64 r 56⟩
/-- REED_RUN (R409). -/
def readReedRun (r : List Byte) : ReedRunOps :=
  ⟨rec8 r 8, rec8 r 9, rec8 r 10, rec8 r 11, rec8 r 12, rec8 r 13, rec8 r 14, rec32 r 16, rec32 r 20, rec32 r 24⟩
/-- REED_READOUT (R409). -/
def readReadout (r : List Byte) : ReadoutOps :=
  ⟨rec8 r 8, rec8 r 9, rec16 r 10, rec8 r 12, rec8 r 13, rec32 r 16, rec32 r 20, rec32 r 24, rec32 r 28⟩
/-- REED_PROGRAM (R409). -/
def readReedProgram (r : List Byte) : ReedProgramOps := ⟨rec8 r 8, rec32 r 12, rec32 r 16, rec64 r 24⟩

/-! ### Addresses of operands -/

/-- What is wrong with n bytes at a global address that must be cacheable on this device, aligned to `align` (R134, R180,
R435). -/
def State.cacheFault (s : State) (g n align : Nat) : Option QFault :=
  if g % align ≠ 0 then some (ovenFault badCaching 0 g)
  else
    match s.localOf g with
    | none => some (ovenFault badCaching 0 g)
    | some a =>
      if !populated a n then some (ovenFault badAddress 0 g)
      else if !s.allCacheable a n then some (ovenFault badCaching 0 g)
      else none

/-- The first fault of a list of checks (R411). -/
def firstFault : List (Option QFault) → Option QFault
  | [] => none
  | none :: t => firstFault t
  | some f :: _ => some f

/-- A fault when a test fails. -/
def failUnless (ok : Bool) (f : QFault) : Option QFault := if ok then none else some f

end Sys2Proof.Machine
end

