-- ==== Sys2Proof/Machine/Remote.lean ====
section
/-! DEFINITION. Machine/Remote.lean: requests to other devices (chapter 14): the port of a global address, tags, request
headers, and the end of a request. -/

namespace Sys2Proof.Machine

/-- Where a global address lies (R131, R134, R511). -/
inductive Target where
  /-- a local address of this device -/
  | here (addr : Nat)
  /-- an address of another device: the port that leads there, and the local address there -/
  | away (port : PortId) (addr : Nat)
  /-- no address of the tray -/
  | nowhere
  deriving DecidableEq, Repr

/-- A mesh port leads to device e (R511). -/
def State.portTo (s : State) (e : Nat) : PortId := Fin.ofNat 8 ((e + 7 - s.uhleg.devId.toNat) % 8)

/-- The target of n bytes at a global address (R131, R511); the far window leaves by port 7. -/
def State.target (s : State) (g n : Nat) : Target :=
  if 2 ^ 47 < g + n then .nowhere
  else
    let a := g % 2 ^ 44
    if g / 2 ^ 44 ≠ s.uhleg.devId.toNat then (if a + n ≤ 2 ^ 44 then .away (s.portTo (g / 2 ^ 44)) a else .nowhere)
    else if 0x4000000000 ≤ a ∧ a < 0x6000000000 then
      (if a + n ≤ 0x6000000000 then .away 7 (a - 0x4000000000) else .nowhere)
    else if populated a n then .here a
    else .nowhere

/-! ### Requests -/

/-- A request header (R506) without its tag. -/
def requestHeader (opcode cls flags length target : Nat) : List Byte :=
  [byte (opcode + 16 * cls), 0, 0, byte flags] ++ toBytes 4 length ++ toBytes 8 target

/-- A request with its tag put in (R506). -/
def withTag (bytes : List Byte) (tag : Nat) : List Byte := bytes.take 1 ++ toBytes 2 tag ++ bytes.drop 3

/-- A tag that no outstanding request of the port has, sought from `n` on (R506). -/
def freeTag (used : List Outstanding) (n : Nat) : Nat :=
  (((countFrom n 1024).map fun i => i % 1024).find? fun i => used.all fun o => o.tag != i).getD (n % 1024)

/-- A request reaches its port (R509, R511): with the port UP it is sent, or waits for a tag; else it ends at once with
TARGET_GONE, and the answer is false. -/
def State.request (s : State) (port : PortId) (bytes : List Byte) (opcode length : Nat) (waiter : Waiter) :
    State × Bool :=
  if (s.port port).state = .up then
    let l := s.link port
    if l.outstanding.length < 1024 then
      let tag := freeTag l.outstanding l.nextTag
      let l := { l with outstanding := l.outstanding ++ [⟨tag, opcode, length, waiter⟩], nextTag := (tag + 1) % 1024 }
      ((s.setLink port l).sendTransaction port 1 (some tag) (withTag bytes tag), true)
    else (s.setLink port { l with queue := l.queue ++ [(bytes, ⟨0, opcode, length, waiter⟩)] }, true)
  else (s.bump 0x7000 0x25 port 1, false)

/-- A tag has come free: the oldest request that waits for one is sent (R509). -/
def State.nextRequest (s : State) (port : PortId) : State :=
  let l := s.link port
  match l.queue with
  | [] => s
  | (bytes, o) :: t =>
    if l.outstanding.length < 1024 then
      let tag := freeTag l.outstanding l.nextTag
      let l := { l with outstanding := l.outstanding ++ [{ o with tag := tag }], queue := t, nextTag := (tag + 1) % 1024 }
      (s.setLink port l).sendTransaction port 1 (some tag) (withTag bytes tag)
    else s

/-- A range cut at 4 KiB boundaries (R509): offset within the range and length of each piece. -/
def pieces (a : Nat) : Nat → Nat → Nat → List (Nat × Nat)
  | 0, _, _ => []
  | fuel + 1, done, n =>
    if n = 0 then []
    else
      let m := min n (4096 - (a + done) % 4096)
      (done, m) :: pieces a fuel (done + m) (n - m)

/-- The pieces of n bytes at an address (R509). -/
def cutRange (a n : Nat) : List (Nat × Nat) := pieces a (n / 4096 + 2) 0 n

/-- MEM_WRITE requests for bytes at an address of another device (R505, R509): how many were sent. -/
def State.remoteWrite (s : State) (port : PortId) (addr : Nat) (bytes : List Byte) (w : Waiter) : State × Nat :=
  (cutRange addr bytes.length).foldl (fun (r : State × Nat) x =>
    let d := (bytes.drop x.1).take x.2
    let q := r.1.request port (requestHeader 2 3 0 x.2 (addr + x.1) ++ d) 2 x.2 w
    (q.1, r.2 + q.2.toNat)) (s, 0)

/-! ### The end of a request -/

/-- One thing that a command waited for has come (R406, R515). -/
def State.arrived (s : State) (q : QueueId) (place : Place) (n : Nat := 1) : State :=
  let w := s.work q
  s.setWork q { w with inFlight := w.inFlight.map fun f =>
    if f.place = place then { f with waitsFor := f.waitsFor - n } else f }

/-- The opcode of the command in flight at a place; 0xFF when none is. -/
def State.opcodeAt (s : State) (q : QueueId) (place : Place) : Nat :=
  (((s.work q).inFlight.find? fun f => f.place == place).map InFlight.opcode).getD 0xFF

/-- A command in flight ends by a queue fault (R435). -/
def State.faultInFlight (s : State) (q : QueueId) (place : Place) (f : QFault) : State :=
  if (s.work q).inFlight.any fun x => x.place == place then s.faultAt q place (s.opcodeAt q place) f else s

/-- The place of no command: what a request of a queue that is reset answers to (R436). -/
def noPlace : Place := .ring (2 ^ 32)

end Sys2Proof.Machine
end

