-- ==== Sys2Proof/Machine/Cells.lean ====
section
/-! DEFINITION. Machine/Cells.lean: what the commands of the cells share (chapter 07): cell buffers, accumulator and
statistics files, uncorrectable errors of a cell, arithmetic flags, checks of lanes and ranges, and a command's work cell
by cell. -/

namespace Sys2Proof.Machine

/-- Bytes of a cell buffer (R223). -/
def bufBytes : Nat := 0x600000

/-- One byte of a cell buffer; there is none beyond its end. -/
def State.bufByte (s : State) (c off : Nat) : Byte := if off < bufBytes then s.cells.buf.get 0 (c * 2 ^ 23 + off) else 0

/-- Bytes of a cell buffer. -/
def State.bufRead (s : State) (c off n : Nat) : List Byte := Sparse.read 0 s.cells.buf (c * 2 ^ 23 + off) n

/-- A little-endian number of a cell buffer (R8). -/
def State.bufNat (s : State) (c off n : Nat) : Nat := ofBytes (s.bufRead c off n)

/-- A span of a write overlaps another span. -/
def touches (a n b m : Nat) : Bool := decide (a < b + m) && decide (b < a + n)

/-- What a write leaves of the base latch: the blocks of which it changed no byte (R259). -/
def Latch.after (l : Latch) (off n : Nat) : Option Latch :=
  let kept := l.blocks.filter fun i => !touches off n (l.base + l.fmt.blockOffset i) (l.fmt.rawBytes i)
  if kept = [] then none else some { l with blocks := kept }

/-- A write leaves the loaded tile the one that later passes name only when it changes no byte of its tile and window
(R207, log entry 32). -/
def LastTile.after (t : LastTile) (off n : Nat) : Option LastTile :=
  let window := match t.window with
    | some (w, _) => touches off n w (256 + t.fmt.tileBytes)
    | none => false
  if touches off n t.tile t.fmt.tileBytes || window then none else some t

/-- Bytes written to a cell buffer (R224, R259). -/
def State.bufWrite (s : State) (c off : Nat) (l : List Byte) : State :=
  let k := s.cells
  { s with cells := { k with
      buf := Sparse.write 0 k.buf (c * 2 ^ 23 + off) l
      latch := k.latch.set none c ((k.latch.get none c).bind fun x => x.after off l.length)
      tile := k.tile.set none c ((k.tile.get none c).bind fun x => x.after off l.length) } }

/-- One byte range written to the buffers of several cells (R231, R239). -/
def State.multicast (s : State) (cells : List CellId) (off : Nat) (l : List Byte) : State :=
  cells.foldl (fun (s : State) (c : CellId) => s.bufWrite c off l) s

/-- An accumulator word (R214). -/
def State.accWord (s : State) (c lane col : Nat) : F32 := s.cells.acc.get 0 (c * 2 ^ 17 + lane * 512 + col)

/-- An accumulator word replaced. -/
def State.setAcc (s : State) (c lane col : Nat) (v : F32) : State :=
  { s with cells := { s.cells with acc := s.cells.acc.set 0 (c * 2 ^ 17 + lane * 512 + col) v } }

/-- Words of one lane from a column on. -/
def State.setAccRow (s : State) (c lane col : Nat) (l : List F32) : State :=
  { s with cells := { s.cells with acc := Sparse.write 0 s.cells.acc (c * 2 ^ 17 + lane * 512 + col) l } }

/-- A statistics row (R220). -/
def State.statRow (s : State) (c row : Nat) : StatRow := s.cells.stat.get StatRow.blank (c * 4096 + row)

/-- A statistics row replaced. -/
def State.setStat (s : State) (c row : Nat) (x : StatRow) : State :=
  { s with cells := { s.cells with stat := s.cells.stat.set StatRow.blank (c * 4096 + row) x } }

/-- Accumulator words that the spec leaves unspecified (R237, R307): each takes a free value (log entry 17). -/
def State.freeLanes (s : State) (c first n : Nat) : State :=
  let d := s.draw
  (countFrom first n).foldl (fun (s : State) lane =>
    s.setAccRow c lane 0 ((countFrom 0 512).map fun col => Config.freeF32 d.1 ((c * 256 + lane) * 512 + col))) d.2

/-- Statistics rows that the spec leaves unspecified (R307). -/
def State.freeStats (s : State) (c first n : Nat) : State :=
  let d := s.draw
  (countFrom first n).foldl (fun (s : State) row =>
    s.setStat c row ⟨Config.freeF32 d.1 (2 * (c * 4096 + row)), Config.freeF32 d.1 (2 * (c * 4096 + row) + 1)⟩) d.2

/-! ### Errors and flags -/

/-- The counters of R56 that flags advance, by their place from 0x20 on. -/
def flagCounters (f : ArithFlags) : List Nat :=
  (if f.nanIn || f.nanGen then [0] else []) ++ (if f.infGen then [1] else []) ++ (if f.satFp8 then [2] else [])

/-- Arithmetic flags of a command in flight, raised in a cell (R55, R56): set in the queue's word, and each counter of the cell
advanced once by the command. -/
def State.noteFlags (s : State) (q : QueueId) (place : Place) (c : Nat) (f : ArithFlags) : State :=
  let x := s.queue q
  let s := s.setQueue q { x with arithFlags := x.arithFlags ||| f.word.setWidth 5 }
  let old := (((s.work q).inFlight.find? fun y => y.place == place).map InFlight.counted).getD []
  let new := (flagCounters f).filter fun k => decide (4 * c + k ∉ old)
  if new = [] then s
  else
    (new.foldl (fun (s : State) k => s.bump (0x4000 + c) (0x20 + k) 0 1) s).mapFlight q place fun y =>
      { y with counted := y.counted ++ new.map fun k => 4 * c + k }

/-! ### Checks -/

/-- The cells of a mask, as cell numbers. -/
def cellIds (mask : BitVec 16) : List CellId := (List.finRange 16).filter fun c => mask.getLsbD c.val

/-- The mask names one cell (R407). -/
def oneCell (mask : BitVec 16) : Bool := (cellsOf mask).length == 1

/-- n bytes at an offset lie in the cell buffer (R229). -/
def bufFault (off n : Nat) : Option QFault := failUnless (decide (off + n ≤ bufBytes)) (ovenFault badAddress 0 off)

/-- V ranges of n bytes, a stride apart, lie in the cell buffer (R229). -/
def rangeFault (base stride v n : Nat) : Option QFault := bufFault base ((v - 1) * stride + n)

/-- An operand at a byte offset is a multiple of `align`. -/
def alignFault (value align offset : Nat) : Option QFault := failUnless (decide (value % align = 0)) (operandFault offset)

/-- Lanes lie in the queue's window (R210). -/
def State.laneFault (s : State) (q first n : Nat) : Option QFault :=
  let x := s.queue q
  failUnless (decide (x.laneFirst.toNat ≤ first) && decide (first + n ≤ x.laneFirst.toNat + x.laneCount.toNat))
    (ovenFault badLanes (first + n * 2 ^ 16))

/-- Statistics rows lie in the queue's window (R210). -/
def State.rowFault (s : State) (q first n : Nat) : Option QFault :=
  let x := s.queue q
  failUnless (decide (16 * x.laneFirst.toNat ≤ first) &&
    decide (first + n ≤ 16 * (x.laneFirst.toNat + x.laneCount.toNat))) (ovenFault badLanes (first + n * 2 ^ 16))

/-! ### A command cell by cell -/

/-- What a command did in one cell: the flags it raised, the fault it met, and what it waits for there. -/
structure CellDone where
  state : State
  flags : ArithFlags
  fault : Option QFault
  waits : Nat
  hostReads : List Nat

/-- Work done in a cell. -/
def CellDone.ok (s : State) (f : ArithFlags := {}) : CellDone := ⟨s, f, none, 0, []⟩

/-- A fault met in a cell. -/
def CellDone.bad (s : State) (f : QFault) (c : Nat) : CellDone := ⟨s, {}, some { f with cell := c }, 0, []⟩

/-- A cell sequencer. -/
def State.sequencer (s : State) (c : Nat) : Sequencer := s.front.sequencers.get Sequencer.blank c

/-- A cell sequencer replaced. -/
def State.setSequencer (s : State) (c : Nat) (x : Sequencer) : State :=
  { s with front := { s.front with sequencers := s.front.sequencers.set Sequencer.blank c x } }

/-- Accumulator lanes that a record's command uses in each of its cells (R209, R210, R307): the first, how many, and whether
it writes them. -/
def State.laneUse (s : State) (q : Nat) (r : List Byte) : Option (Nat × Nat × Bool) :=
  let op := recNat r 0 1
  if op = 0x20 then some ((readKnead r).firstLane.toNat, (readKnead r).lanes.toNat, true)
  else if op = 0x21 then some ((readDrain r).firstLane.toNat, (readDrain r).lanes.toNat, false)
  else if op = 0x22 then
    let o := readSieve r
    if o.aSource = 1 then
      some (if recNat r 8 1 = 0x15 then o.first.toNat / 16 else o.first.toNat, o.vectors.toNat, false) else none
  else if op = 0x23 then
    let o := readRope r
    if o.source = 1 then some (o.firstLane.toNat, o.vectors.toNat, false) else none
  else if op = 0x31 then some ((s.queue q).laneFirst.toNat, (s.queue q).laneCount.toNat, true)
  else none

/-- A command of a queue has not begun in a cell. -/
def State.placed (s : State) (c q : Nat) (place : Place) : Bool := (s.subQueue c q).any fun e => e.place == place

/-- A command in flight works in a cell now: it has begun there and not completed there. -/
def State.worksIn (s : State) (c : Nat) (q : QueueId) (f : InFlight) : Bool :=
  f.header.mask.getLsbD c && decide (c ∉ f.ended) && !s.placed c q f.place

/-- A record's command packs or counts in the expander (R256). -/
def usesExpander (r : List Byte) : Bool := recNat r 0 1 == 0x38 || recNat r 0 1 == 0x39

/-- Two uses of accumulator lanes that may not overlap in time (R209): they meet, and one writes. -/
def lanesMeet : Option (Nat × Nat × Bool) → Option (Nat × Nat × Bool) → Bool
  | some u, some v => overlaps u.1 u.2.1 v.1 v.2.1 && (u.2.2 || v.2.2)
  | _, _ => false

/-- A command must wait in a cell for an earlier one that works there: it would read accumulator lanes that one still writes, or
write lanes that one still reads or writes (R209); or both need the expander for tiles of streams (R256). -/
def State.hazard (s : State) (c : Nat) (q : QueueId) (r : List Byte) : Bool :=
  (List.finRange 64).any fun p => (s.work p).inFlight.any fun f =>
    s.worksIn c p f && (lanesMeet (s.laneUse q r) (s.laneUse p f.record) || (usesExpander r && usesExpander f.record))

/-- The command that a queue has placed first in a cell is the one at a place, and the cell's sequencer may begin it (R209,
R256, R406). -/
def State.begins (s : State) (q : QueueId) (place : Place) (c : Nat) : Bool :=
  match s.subQueue c q with
  | e :: _ => e.place == place && !s.hazard c q e.record
  | [] => false

/-- Cell sequencers begin a queue's first command in each of some cells (R432): it leaves their sub-queues. -/
def State.leaveSubs (s : State) (q : QueueId) (cells : List Nat) : State :=
  cells.foldl (fun (s : State) c => (s.setSubQueue c q (s.subQueue c q).tail).setSequencer c ⟨q, false⟩) s

/-- A command in flight waits for more answers. -/
def State.awaits (s : State) (q : QueueId) (place : Place) (n : Nat) (hostReads : List Nat) : State :=
  s.mapFlight q place fun f => { f with waitsFor := f.waitsFor + n, hostReads := f.hostReads ++ hostReads }

/-- A command's work in one more of its cells: the state, and the faults that cells before it met. A cell with an
uncorrectable error delivers nothing, and the command does not complete (R227). -/
def State.workIn (hw : Hw) (x : Issue) (work : Nat → State → CellDone) (r : State × List QFault) (c : Nat) :
    State × List QFault :=
  if (badIn hw c).isSome || lostFlit hw x.header.mask then (r.1.awaits x.queue x.place 1 [], r.2)
  else
    let d := work c r.1
    ((d.state.noteFlags x.queue x.place c d.flags).awaits x.queue x.place d.waits d.hostReads, r.2 ++ d.fault.toList)

/-- A command begins in some of its cells, in ascending order (R406, R447): the cells that meet no fault do their work, and the
fault is that of the lowest cell that meets one. -/
def State.workCells (s : State) (hw : Hw) (x : Issue) (work : Nat → State → CellDone) (cells : List Nat) : Done :=
  let r := cells.foldl (State.workIn hw x work) (s.leaveSubs x.queue cells, [])
  ⟨r.1, r.2.head?, .own⟩

/-- A command begins in those of its cells where nothing is before it. -/
def State.cellWork (s : State) (hw : Hw) (x : Issue) (work : Nat → State → CellDone) : Done :=
  s.workCells hw x work ((cellsOf x.header.mask).filter fun c => s.begins x.queue x.place c)

/-- What every cell command checks first (R407, R411): its mask names a cell, or exactly one. -/
def State.cellHeader (s : State) (x : Issue) (opcode : Nat) (single : Bool) : Option QFault :=
  s.headerCheck x.queue opcode x.header (if single then oneCell x.header.mask else x.header.mask != 0) false

/-- The cell of a command that runs in one cell. -/
def theCell (mask : BitVec 16) : CellId := ((cellIds mask).head?).getD 0

end Sys2Proof.Machine
end

