-- ==== Sys2Proof/Machine/Reed.lean ====
section
/-! DEFINITION. Machine/Reed.lean: the Reed arrays (chapter 11): runs, contributions, readout, programming, test checks,
monitoring, recalibration, and FRAME_SYNC. -/

namespace Sys2Proof.Machine

/-! ### Arrays -/

/-- Operations issued to an array, the oldest first. -/
def State.reedOps (s : State) (c : Nat) : List ReedOp := s.reed.ops.get [] c

/-- The operations of an array replaced. -/
def State.setReedOps (s : State) (c : Nat) (l : List ReedOp) : State :=
  { s with reed := { s.reed with ops := s.reed.ops.set [] c l } }

/-- The health of an array. -/
def State.health (s : State) (c : Nat) : ReedHealth := s.reed.health.get ReedHealth.blank c

/-- The health of an array replaced. -/
def State.setHealth (s : State) (c : Nat) (h : ReedHealth) : State :=
  { s with reed := { s.reed with health := s.reed.health.set ReedHealth.blank c h } }

/-- The monitor's window and reference start anew (R386, R387). -/
def ReedHealth.restartMonitor (h : ReedHealth) : ReedHealth :=
  { h with windowVectors := 0, windowConversions := 0, windowSaturated := 0, windowSums := [], reference := none }

/-- The queue of an operation. -/
def ReedOp.queue : ReedOp → QueueId
  | .run q _ _ _ _ _ => q
  | .program q _ _ _ => q
  | .readout q _ _ => q

/-- The place of an operation's command. -/
def ReedOp.place : ReedOp → Place
  | .run _ p _ _ _ _ => p
  | .program _ p _ _ => p
  | .readout _ p _ => p

/-- A programming, begun or not (R78). -/
def ReedOp.isProgram : ReedOp → Bool
  | .program .. => true
  | _ => false

/-- A programming that has begun (R396). -/
def ReedOp.programs : ReedOp → Bool
  | .program _ _ _ work => work.isSome
  | _ => false

/-- The array is programming (R396). -/
def State.programming (s : State) (c : Nat) : Bool := (((s.reedOps c).head?).map ReedOp.programs).getD false

/-- 0x2000:20 VPRG request reads 1 while a programming is pending or in progress (R78, R380). -/
def State.vprgRequest (s : State) : State :=
  let b := (countFrom 0 16).any fun c => (s.reedOps c).any ReedOp.isProgram
  s.setLed 0x2000 0x20 0 b.toNat

/-- The arrays have their clocks (R82, R385). -/
def State.arraysRun (s : State) : Bool := (s.serving || s.life.state == .starting) && s.power.mainClocks

/-- A Reed fault (R389): the code, with the group, as 0x6800:15 holds them. -/
def reedFault (code group : Nat) : QFault := ovenFault badReed (code + group % 16 * 16)

/-! ### Slots -/

/-- The key of a slot value. -/
def slotKey (c slot col : Nat) : Nat := (c * 64 + slot) * 256 + col

/-- A slot set to zero, its queue record cleared (R369, R392). -/
def State.zeroSlot (s : State) (c slot : Nat) : State :=
  { s with reed := { s.reed with
      acc := s.reed.acc.clear (slotKey c slot 0) 256
      slotQueue := s.reed.slotQueue.set none (c * 64 + slot) none } }

/-- A contribution added to a slot modulo 2^32, with the queue it comes from (R367). -/
def State.addSlot (s : State) (q : QueueId) (c slot : Nat) (counts : List Int) : State :=
  let old := s.reed.acc.read 0 (slotKey c slot 0) 256
  let new := (old.zip counts).map fun x => x.1 + BitVec.ofInt 32 x.2
  { s with reed := { s.reed with
      acc := s.reed.acc.write 0 (slotKey c slot 0) new
      slotQueue := s.reed.slotQueue.set none (c * 64 + slot) (some q) } }

/-- A 32-bit two's complement number as FP32 (R369). -/
def f32OfInt (i : Int) : F32 := roundF32 (.fin (decide (i < 0)) i.natAbs 0)

/-- One value of a readout (R369), in FP32. -/
def readoutValue (acc : Word) (m : F32) (scale : Bf16) : F32 × ArithFlags :=
  let k := f32Mul m (bf16ToF32 scale)
  let y := f32Mul (f32OfInt acc.toInt) k.1
  (y.1, k.2.join y.2)

/-- One slot read out (R369). -/
def State.readSlot (s : State) (c : Nat) (o : ReadoutOps) (j : Nat) : State × ArithFlags :=
  let slot := o.firstSlot.toNat + j
  let bf := o.format == 1
  let r := (countFrom 0 o.columns.toNat).map fun n =>
    let y := readoutValue (s.reed.acc.get 0 (slotKey c slot n)) o.m (BitVec.ofNat 16 (s.bufNat c (o.scales.toNat + 2 * n) 2))
    if bf then
      let b := f32ToBf16 y.1
      (toBytes 2 b.1.toNat, y.2.join b.2)
    else (toBytes 4 y.1.toNat, y.2)
  let s := s.bufWrite c (o.outBase.toNat + j * o.outStride.toNat) (r.flatMap Prod.fst)
  let s := if bit o.flags.toNat 0 then s.zeroSlot c slot else s
  (s, r.foldl (fun f x => f.join x.2) {})

/-- The slots of a readout, one after the other. -/
def State.readSlots (s : State) (c : Nat) (o : ReadoutOps) : State × ArithFlags :=
  (countFrom 0 o.slots.toNat).foldl (fun (r : State × ArithFlags) j =>
    let t := r.1.readSlot c o j
    (t.1, r.2.join t.2)) (s, {})

/-! ### Weights -/

/-- The conductance window of a level in nS (R360). -/
def levelWindow (level : Nat) : Nat × Nat :=
  match level with
  | 0 => (0, 500)
  | 1 => (7500, 8500)
  | 2 => (15500, 16500)
  | _ => (23500, 24500)

/-- A cell lies in the window of a level. -/
def inLevel (level nS : Nat) : Bool := between (levelWindow level).1 nS (levelWindow level).2

/-- The level of a cell (R360); one that lies in no window counts as at L0, and no run uses it (R380). -/
def levelOf (nS : Nat) : Nat := ((countFrom 0 4).find? fun l => inLevel l nS).getD 0

/-- The key of a cell of a pair, the N cell when `side` is true. -/
def condKey (c row col : Nat) (side : Bool) : Nat := (c * 2 ^ 18 + row * 256 + col) * 2 + side.toNat

/-- The conductance of a cell of a pair. -/
def State.conductance (s : State) (c row col : Nat) (side : Bool) : Nat := s.reed.cond.get 0 (condKey c row col side)

/-- A conductance replaced. -/
def State.setConductance (s : State) (c row col : Nat) (side : Bool) (nS : Nat) : State :=
  { s with reed := { s.reed with cond := s.reed.cond.set 0 (condKey c row col side) nS } }

/-- The weights of the test rows, the same in every column (R383). -/
def testWeight (row : Nat) : Int := if row < 1012 then 3 else if row < 1016 then 1 else if row < 1020 then -3 else -1

/-- A weight: the level of its P cell minus that of its N cell (R360); the test rows hold what the factory gave them
(R383). -/
def State.weight (s : State) (c row col : Nat) : Int :=
  if 1008 ≤ row then testWeight row
  else (levelOf (s.conductance c row col false) : Int) - levelOf (s.conductance c row col true)

/-! ### Programming -/

/-- The rows of a group that programming writes (R375). -/
def programRows (g : Nat) : Nat := if g = 15 then 48 else 64

/-- The 4-bit code of a source for row i of the group and a column (R361). -/
def sourceCode (source : List Byte) (i n : Nat) : Nat := bits (source.getD (128 * i + n / 2) 0).toNat (n % 2 * 4) 4

/-- The weight of a 4-bit two's complement code. -/
def codeWeight (v : Nat) : Int := if 8 ≤ v then (v : Int) - 16 else v

/-- A source code is bad: outside −3 to +3, or not zero in a test row (R361, R375). -/
def targetOutside (group : Nat) (source : List Byte) : Bool :=
  (countFrom 0 64).any fun i => (countFrom 0 256).any fun n =>
    let v := sourceCode source i n
    (decide (4 ≤ v) && decide (v ≤ 12)) || (decide (programRows group ≤ i) && v != 0)

/-- The level that a source asks of a cell: one cell of every pair is at L0 (R360). -/
def targetLevel (source : List Byte) (i n : Nat) (side : Bool) : Nat :=
  let w := codeWeight (sourceCode source i n)
  (if side then -w else w).toNat

/-- A programming pulse (R377): its commanded current in µA, its plateau and its trailing edge in ns. -/
structure Pulse where
  current : Nat
  plateau : Nat
  trailing : Nat
  deriving DecidableEq, Repr

/-- The pulse of a phase of the loop (R377, R378): the RESET, or a SET step. -/
def phasePulse (phase : Nat) : Pulse := if phase = 0 then ⟨400, 50, 2⟩ else ⟨100 + 10 * (phase - 1), 200, 100⟩

/-- The cells of a row in the order in which the drivers pulse them: each driver its P cell, then its N cell (R377). -/
def rowCells : List (Nat × Bool) :=
  (countFrom 0 256).map (fun n => (n, false)) ++ (countFrom 0 256).map fun n => (n, true)

/-- The conductance of a cell of the row in work. -/
def State.reads (s : State) (c g : Nat) (w : ProgramRun) (x : Nat × Bool) : Nat := s.conductance c (64 * g + w.row) x.1 x.2

/-- The cells of the row in work that lie outside their target windows (R378). -/
def State.outside (s : State) (c g : Nat) (w : ProgramRun) : List (Nat × Bool) :=
  rowCells.filter fun x => !inLevel (targetLevel w.source w.row x.1 x.2) (s.reads c g w x)

/-- The cells of the row in work with target L1 to L3 that lie below their windows (R378). -/
def State.lowCells (s : State) (c g : Nat) (w : ProgramRun) : List (Nat × Bool) :=
  rowCells.filter fun x =>
    let l := targetLevel w.source w.row x.1 x.2
    l != 0 && decide (s.reads c g w x < (levelWindow l).1)

/-- The cells that the next iteration pulses, in order; none when the phase is done (R378). -/
def State.pulsed (s : State) (c g : Nat) (w : ProgramRun) : List (Nat × Bool) :=
  if w.phase = 0 then s.outside c g w else if w.phase ≤ 16 then s.lowCells c g w else []

/-- The pulses of the next iteration, in order (R377). -/
def State.pulses (s : State) (c g : Nat) (w : ProgramRun) : List (Nat × Bool × Pulse) :=
  (s.pulsed c g w).map fun x => (x.1, x.2, phasePulse w.phase)

/-- Program status codes (R380). -/
def statusOk : Nat := 0
def statusVprgLow : Nat := 1
def statusCompliance : Nat := 2
def statusVerifyFail : Nat := 3
def statusWorn : Nat := 4
def statusAborted : Nat := 5

/-- Pulses that end at the row in work (R380). -/
def ProgramRun.finish (w : ProgramRun) (g status : Nat) (cell : Nat × Bool := (0, false)) : ProgramRun :=
  { w with ended := some ⟨status, 64 * g + w.row, cell.1, cell.2.toNat⟩ }

/-- The loop of R378 goes on to the next iteration, or to its end: a row whose cells are all in their windows gives way to
the next, and one that fails twice ends the operation. `n` bounds the rows and attempts passed over. -/
def State.seek (s : State) (c g : Nat) : Nat → ProgramRun → ProgramRun
  | 0, w => w
  | n + 1, w =>
    if s.pulsed c g w ≠ [] then w
    else if s.outside c g w = [] then
      if w.row + 1 < programRows g then s.seek c g n { w with row := w.row + 1, attempt := 1, phase := 0, count := 0 }
      else w.finish g statusOk
    else if w.attempt = 2 then w.finish g statusVerifyFail
    else s.seek c g n { w with attempt := 2, phase := 0 }

/-- A programming begins (R378): the first row is read. -/
def State.beginPulses (s : State) (c g : Nat) (source : List Byte) : ProgramRun :=
  s.seek c g 130 ⟨source, 0, 1, 0, 0, 0, none⟩

/-- The cells whose pulses were not cut or left out: all of an iteration, or, when a driver reached its limit in the pulses of
the P cells, those (R377, R379). -/
def reachedBy (limit : Option (Nat × Bool)) (x : Nat × Bool) : Bool :=
  match limit with
  | some (_, false) => !x.2
  | _ => true

/-- Pulses bring cells to their new conductances. -/
def State.applyPulses (s : State) (c row : Nat) (cells : List (Nat × Bool × Nat)) : State :=
  cells.foldl (fun (s : State) x => s.setConductance c row x.1 x.2.1 x.2.2) s

/-- One iteration begins (R381): the counts of the row. -/
def ProgramRun.counted (w : ProgramRun) : ProgramRun := { w with count := w.count + 1, most := max w.most (w.count + 1) }

/-- One iteration of a programming (R377 to R379): the pulses, then the verify read of the row; at a driver's limit it ends
with COMPLIANCE, and no further pulse is applied. -/
def State.iterate (s : State) (c g : Nat) (w : ProgramRun) (p : PulseIteration) : State × ProgramRun :=
  let cells := s.pulsed c g w
  let limit := p.limit.bind fun x => if (x.1.val, x.2) ∈ cells then some (x.1.val, x.2) else none
  let hit := (p.cells.map fun x => (x.1.val, x.2.1, x.2.2)).filter fun x =>
    decide ((x.1, x.2.1) ∈ cells) && reachedBy limit (x.1, x.2.1)
  let s := s.applyPulses c (64 * g + w.row) hit
  let w := w.counted
  match limit with
  | some x => (s, w.finish g statusCompliance x)
  | none => (s, s.seek c g 130 { w with phase := w.phase + 1 })

/-- Iterations follow one another until the pulses end; each advances PROGRESS (R433). -/
def State.iterations (q c g : Nat) : List PulseIteration → State × ProgramRun → State × ProgramRun
  | [], r => r
  | p :: t, r =>
    if r.2.ended.isSome then r
    else
      let x := r.1.iterate c g r.2 p
      State.iterations q c g t (x.1.progress q 1, x.2)

/-- The iteration in progress ends where no command says how it came out (R78, R379, R393): it was begun and counts, and the
conductances of the cells it pulsed are free (log entry 124). -/
def State.lastIteration (s : State) (c g : Nat) (w : ProgramRun) : State × ProgramRun :=
  let d := s.draw
  let cells := s.pulsed c g w
  (d.2.applyPulses c (64 * g + w.row) ((cells.zip (countFrom 0 512)).map fun x =>
    (x.1.1, x.1.2, (Config.freeCount d.1 x.2).natAbs)), w.counted)

/-- The status record of R380, bits [63:0]; the rest is reserved. -/
def programStatus (g iterations : Nat) (e : PulseEnd) : Nat :=
  e.status + g * 2 ^ 8 + e.row * 2 ^ 12 + e.column * 2 ^ 22 + e.side * 2 ^ 30 + iterations * 2 ^ 32

/-- A status record is written to the status word and to the array's element of 0x6800:14, and a status other than OK is
logged (R380). -/
def State.reportProgram (s : State) (c : Nat) (o : ReedProgramOps) (iterations : Nat) (e : PulseEnd) : State :=
  let record := programStatus o.group.toNat iterations e
  let s := (s.bufWrite c o.status.toNat (toBytes 16 record)).setStored 0x6800 0x14 c record
  if e.status = statusOk then s else s.raise 0x0505 sevWarning (toBytes 8 record)

/-- Uhleg persists what a block gives it (R376, R380, R395): not while it restarts. -/
def State.persists (s : State) : Bool := s.uhleg.phase == .firmware || s.uhleg.phase == .recovery

/-- A pulsed programming ends (R380, R381, R385, R386): its record; the group's exact count in place of the write-ahead value;
VALID with its tag on OK alone. -/
def State.endPulses (s : State) (c : Nat) (o : ReedProgramOps) (w : ProgramRun) (e : PulseEnd) : State :=
  let i := 16 * c + o.group.toNat
  let s := s.reportProgram c o w.most e
  let s := s.setStored 0x6800 0x12 i (s.led 0x6800 0x12 i - 34 + w.most)
  let h := (s.health c).restartMonitor
  if e.status = statusOk then
    ((s.setStored 0x6800 0x11 i o.tag.toNat).setStored 0x6800 0x10 i 1).setHealth c { h with testDue := true }
  else (s.setLed 0x6800 0x10 i 0).setHealth c h

/-- Why a programming ends before its first pulse, if it does (R376). -/
def State.refusesPulses (s : State) (c g : Nat) : Option Nat :=
  if 100000 < s.led 0x6800 0x12 (16 * c + g) + 34 then some statusWorn
  else if !s.power.inWindow.vprg then some statusVprgLow
  else none

/-- The write-ahead of R376: the group INVALID and its count 34 higher in the store, then PROGRAMMING. The count's passing of
90,000 is logged (R382), here where it is advanced (log entry 137). -/
def State.writeAhead (s : State) (c g : Nat) : State :=
  let i := 16 * c + g
  let before := s.led 0x6800 0x12 i
  let s := (s.setStored 0x6800 0x10 i 0).setStored 0x6800 0x12 i (before + 34)
  let s := if before < 90000 ∧ 90000 ≤ before + 34 then
      s.raise 0x0504 sevWarning ([byte c, byte g, 0, 0] ++ toBytes 4 (before + 34)) else s
  s.setLed 0x6800 0x10 i 2

/-! ### Operations one at a time -/

/-- The head operation of an array is gone, and its command has one thing less to wait for. -/
def State.endOp (s : State) (c : Nat) (q : QueueId) (place : Place) : State :=
  ((s.setReedOps c (s.reedOps c).tail).vprgRequest).arrived q place

/-- The frame target of a run is reached (R373). -/
def State.frameReached (s : State) (target : Nat) : Bool :=
  target == 0 || decide ((s.led 0x6800 0x40 + 2 ^ 32 - target) % 2 ^ 32 < 2 ^ 31)

/-- The lowest group of a run that is not VALID (R364). -/
def State.invalidGroup (s : State) (c : Nat) (o : ReedRunOps) : Option Nat :=
  (countFrom o.g0.toNat o.groups.toNat).find? fun g => s.led 0x6800 0x10 (16 * c + g) != 1

/-- The source of a programming as it is read when it begins (R361, R375). -/
def State.programSource (s : State) (c : Nat) (o : ReedProgramOps) : List Byte := s.bufRead c o.source.toNat 8192

/-- An array takes up its next operations (R364, R373): a run begins once its frame target is reached, unless a group is
INVALID; a programming begins its pulses, or ends before them; one whose pulses have ended is persisted and completes
(R380, R395); a readout is done where `reads` says that its cell can be read now. A test check or a recalibration that is
due comes first (R385, R387). `n` bounds the operations taken up. -/
def State.kick (reads : Bool) (c : Nat) : Nat → State → State
  | 0, s => s
  | n + 1, s =>
    match s.reedOps c with
    | .program q place o (some w) :: _ =>
      match w.ended with
      | some e => if s.persists then State.kick reads c n ((s.endPulses c o w e).endOp c q place) else s
      | none => s
    | .run q place o false v k :: t =>
      if (s.health c).recalDue || (s.health c).testDue || !s.frameReached o.frame.toNat then s
      else
        match s.invalidGroup c o with
        | some g => State.kick reads c n (s.setReedOps c t |>.faultInFlight q place { reedFault 3 g with cell := c })
        | none => s.setReedOps c (.run q place o true v k :: t)
    | .program q place o none :: t =>
      let g := o.group.toNat
      let source := s.programSource c o
      if (s.health c).recalDue || (s.health c).testDue then s
      else if targetOutside g source then
        State.kick reads c n (((s.setReedOps c t).vprgRequest).faultInFlight q place { reedFault 4 g with cell := c })
      else if !s.persists then s
      else
        match s.refusesPulses c g with
        | some st => State.kick reads c n ((s.reportProgram c o 0 ⟨st, 64 * g, 0, 0⟩).endOp c q place)
        | none =>
          let s := s.writeAhead c g
          State.kick reads c n (s.setReedOps c (.program q place o (some (s.beginPulses c g source)) :: t))
    | .readout q place o :: _ =>
      if (s.health c).recalDue || (s.health c).testDue || !reads then s
      else
        let r := s.readSlots c o
        State.kick reads c n ((r.1.noteFlags q place c r.2).endOp c q place)
    | _ => s

/-- An array takes up what it can; an operation may begin and end. -/
def State.kickArray (s : State) (c : Nat) (reads : Bool := false) : State :=
  State.kick reads c (2 * (s.reedOps c).length) s

/-- Every array takes up what it can. -/
def State.kickArrays (s : State) : State := (countFrom 0 16).foldl (fun (s : State) c => s.kickArray c) s

/-! ### The commands of the queue -/

/-- A Reed command begins in a cell: the operation is handed to the array (R364). -/
def State.reedCell (s : State) (op : ReedOp) (c : Nat) : CellDone :=
  .ok (((s.setReedOps c (s.reedOps c ++ [op])).vprgRequest).kickArray c true)

/-- A Reed command waits for one operation in each of its cells, and begins in them. -/
def State.reedIssue (s : State) (x : Issue) (hw : Hw) (op : ReedOp) : Done :=
  (s.awaits x.queue x.place (cellsOf x.header.mask).length []).cellWork hw x fun c u => u.reedCell op c

/-- V ranges of n bytes, a stride apart, exceed the cell buffer. -/
def exceeds (base stride v n : Nat) : Bool := decide (bufBytes < base + (v - 1) * stride + n)

/-- What the Oven checks of REED_RUN (R362, R389, R407). -/
def State.runCheck (s : State) (x : Issue) (o : ReedRunOps) : Option QFault :=
  let g0 := o.g0.toNat
  let g := o.groups.toNat
  let v := o.vectors.toNat
  firstFault [s.cellHeader x 0x40 false, failUnless (decide (o.mode.toNat ≤ 1)) (operandFault 10),
    failUnless (decide (o.gain.toNat ≤ 3)) (operandFault 11),
    failUnless (decide (g0 ≤ 15) && between 1 g 16 && decide (g0 + g ≤ 16) && between 1 v 64 && decide (o.dest.toNat ≤ 15) &&
      decide (o.firstSlot.toNat + v ≤ 64)) (reedFault 1 g0),
    failUnless (decide (o.inBase.toNat % 128 = 0) && decide (o.inStride.toNat % 128 = 0) &&
      decide (64 * g ≤ o.inStride.toNat) && !exceeds o.inBase.toNat o.inStride.toNat v (64 * g)) (reedFault 2 g0)]

/-- REED_RUN. -/
def execReedRun (x : Issue) (o : ReedRunOps) (s : State) : Host.Outcome State Fault Refusal :=
  .next (s.issue x 0x40 (fun r => readReedRun r = o) (fun t _ => t.runCheck x o)
    fun hw t => t.reedIssue x hw (.run x.queue x.place o false 0 false))

/-- What the Oven checks of REED_READOUT (R369, R389, R407). -/
def State.readoutCheck (s : State) (x : Issue) (o : ReadoutOps) : Option QFault :=
  let n := o.slots.toNat
  let w := o.columns.toNat * (if o.format = 1 then 2 else 4)
  firstFault [s.cellHeader x 0x41 true, failUnless (decide (o.format.toNat ≤ 1)) (operandFault 12),
    failUnless (between 1 n 64 && decide (o.firstSlot.toNat + n ≤ 64) && between 1 o.columns.toNat 256) (reedFault 1 0),
    failUnless (decide (o.scales.toNat % 128 = 0) && decide (o.outBase.toNat % 128 = 0) &&
      decide (o.outStride.toNat % 128 = 0) && !exceeds o.scales.toNat 0 1 512 &&
      !exceeds o.outBase.toNat o.outStride.toNat n w) (reedFault 2 0)]

/-- REED_READOUT. -/
def execReedReadout (x : Issue) (o : ReadoutOps) (s : State) : Host.Outcome State Fault Refusal :=
  .next (s.issue x 0x41 (fun r => readReadout r = o) (fun t _ => t.readoutCheck x o)
    fun hw t => t.reedIssue x hw (.readout x.queue x.place o))

/-- What the Oven checks of REED_PROGRAM (R375, R389, R407). -/
def State.programCheck (s : State) (x : Issue) (o : ReedProgramOps) : Option QFault :=
  firstFault [s.cellHeader x 0x42 true, failUnless (decide (o.group.toNat ≤ 15)) (operandFault 8),
    failUnless (decide (o.source.toNat % 128 = 0) && decide (o.status.toNat % 128 = 0) &&
      !exceeds o.source.toNat 0 1 8192 && !exceeds o.status.toNat 0 1 16) (reedFault 2 o.group.toNat)]

/-- REED_PROGRAM: its iterations come with the command's completion. -/
def execReedProgram (x : Issue) (o : ReedProgramOps) (s : State) : Host.Outcome State Fault Refusal :=
  .next (s.issue x 0x42 (fun r => readReedProgram r = o) (fun t _ => t.programCheck x o)
    fun hw t => t.reedIssue x hw (.program x.queue x.place o none))

/-- The array that programs for a command, with its operands and how far it came. -/
def State.programOf (s : State) (q : QueueId) (place : Place) : Option (Nat × ReedProgramOps × ProgramRun) :=
  (countFrom 0 16).findSome? fun c => match s.reedOps c with
    | .program p pl o (some w) :: _ => if p = q ∧ pl = place then some (c, o, w) else none
    | _ => none

/-- How far the programming at the head of an array came, replaced. -/
def State.setWorkDone (s : State) (c : Nat) (w : ProgramRun) : State :=
  match s.reedOps c with
  | .program q place o _ :: t => s.setReedOps c (.program q place o (some w) :: t)
  | _ => s

/-- Iterations of the programming of a command (R378). -/
def State.runPulses (s : State) (q : QueueId) (place : Place) (pulses : List PulseIteration) : State :=
  match s.programOf q place with
  | some (c, o, w) =>
    let r := State.iterations q c o.group.toNat pulses (s, w)
    (r.1.setWorkDone c r.2).kickArray c
  | none => s

/-- A readout that waited for its array is done once it stands first, where no error withholds what it reads (R224, R227, R364,
log entry 124). -/
def State.runReadout (s : State) (hw : Hw) (q : QueueId) (place : Place) : State :=
  (countFrom 0 16).foldl (fun (s : State) c => match s.reedOps c with
    | .readout p pl _ :: _ => if p = q ∧ pl = place ∧ (badIn hw c).isNone then s.kickArray c true else s
    | _ => s) s

/-- VPRG falls while an array programs: the pulse in progress is cut, at a cell that is free among those pulsed, and the
operation ends with COMPLIANCE (R78, R379, R399, log entry 124). -/
def State.cutPulse (s : State) (c : Nat) : State :=
  match s.reedOps c with
  | .program _ _ o (some w) :: _ =>
    if w.ended.isSome then s
    else
      let g := o.group.toNat
      let d := s.draw
      let cells := s.pulsed c g w
      let cell := cells.getD ((Config.freeCount d.1 0).natAbs % cells.length) (0, false)
      let r := d.2.lastIteration c g w
      (r.1.setWorkDone c (r.2.finish g statusCompliance cell)).kickArray c
  | _ => s

/-- VPRG falls: every pulse in progress is cut. -/
def State.vprgFalls (s : State) : State := (countFrom 0 16).foldl (fun (s : State) c => s.cutPulse c) s

/-! ### The guilty-queue reset -/

/-- One array loses the operations of a queue (R392, R393, R436): those not begun and its runs are gone; a programming that has
begun ends ABORTED with its iteration, and what it leaves still waits for Uhleg where it must (R395). -/
def State.dropReed (s : State) (q : QueueId) (c : Nat) : State :=
  let l := (s.reedOps c).filter fun x => x.queue != q
  match s.reedOps c with
  | .program p _ o (some w) :: _ =>
    if p = q then
      let g := o.group.toNat
      let r := if w.ended.isSome then (s, w) else
        let r := s.lastIteration c g w
        (r.1, r.2.finish g statusAborted)
      r.1.setReedOps c (.program p noPlace o (some r.2) :: l)
    else s.setReedOps c l
  | _ => s.setReedOps c l

/-- The Reed arrays lose a queue: its operations, and its slots are zeroed (R392, R393, R436). -/
def State.reedReset (s : State) (q : QueueId) : State :=
  let s := (countFrom 0 16).foldl (fun (s : State) c => s.dropReed q c) s
  let s := (countFrom 0 1024).foldl (fun (s : State) i =>
    if s.reed.slotQueue.get none i = some q then s.zeroSlot (i / 64) (i % 64) else s) s.vprgRequest
  s.kickArrays

/-! ### Vectors -/

/-- The head of an array begins, where it can: the first vector of a frame-paced run (R373). -/
def execReedRunBegin (cell : CellId) (s : State) : Host.Outcome State Fault Refusal :=
  .next (if s.frontRuns then s.kickArray cell else s)

/-- The signed pulse width of a row, 64·g0 + j being the row (R363, R397). -/
def State.rowInput (s : State) (c : Nat) (o : ReedRunOps) (v j : Nat) : Int :=
  let b := s.bufByte c (o.inBase.toNat + v * o.inStride.toNat + j)
  if 1008 ≤ 64 * o.g0.toNat + j then 0 else if o.mode = 1 then b.toInt else b.toNat

/-- S_g × 2^gain of one group and column (R363, R366): 192 times the ideal count. -/
def State.groupSum (s : State) (c : Nat) (o : ReedRunOps) (v g n : Nat) : Int :=
  ((countFrom 0 64).map fun i => s.weight c (64 * (o.g0.toNat + g) + i) n * s.rowInput c o v (64 * g + i)).foldl (· + ·) 0 *
    2 ^ o.gain.toNat

/-- a / b rounded half to even. -/
def halfEvenDiv (a b : Int) : Int :=
  let q := a / b
  let r := a % b
  if 2 * r < b ∨ (2 * r = b ∧ q % 2 = 0) then q else q + 1

/-- The RCLK periods counted of an interval that is given in 1/4,096 RCLK at trim 512 (R366): T scales it by
1 + (T − 512)/4,096; a fraction of a period rounds half to even (log entry 41). -/
def intervalCount (trim : Nat) (interval : Int) : Int := halfEvenDiv (interval * (3584 + trim)) (4096 * 4096)

/-- A count clipped at 255, and whether it was (R366). -/
def clipCount (k : Int) : Int × Bool := if 255 < k then (255, true) else if k < -255 then (-255, true) else (k, false)

/-- An ideal count that is clipped whatever its error within R370 (log entry 41); `a` is 192 times the ideal count. -/
def surelyClips (a : Int) : Bool := decide (256 * 192 * 1000 < a.natAbs * 985)

/-- An ideal count that may be clipped with an error within R370 (log entry 41). -/
def mayClip (a : Int) : Bool := decide (254 * 192 * 1000 < a.natAbs * 1015)

/-- A group's conversion (R366): what is counted of its interval, clipped. In an array whose latest test check passed, a
group whose ideal count lies beyond 255 by more than the error of R370 is clipped, and one that stays below it by more is not
(log entry 41). -/
def groupCount (passed : Bool) (a k : Int) : Int × Bool :=
  if passed && surelyClips a then (if a < 0 then -255 else 255, true)
  else if passed && !mayClip a then ((clipCount k).1, false)
  else clipCount k

/-- The column result of a run in which R370 holds: a count brought within the bound of its group sums. -/
def boundCount (sums : List Int) (k : Int) : Int :=
  let t := sums.foldl (· + ·) 0
  let a : Int := (sums.foldl (fun (n : Nat) (x : Int) => n + x.natAbs) 0 : Nat)
  let b := 192000 * (sums.length : Int) + 15 * a
  max (-((b - 1000 * t) / 192000)) (min ((1000 * t + b) / 192000) k)

/-- The group sums of one vector in one column. -/
def State.columnSums (s : State) (c : Nat) (o : ReedRunOps) (v n : Nat) : List Int :=
  (countFrom 0 o.groups.toNat).map fun g => s.groupSum c o v g n

/-- Some group of a run's vectors from v on may be clipped, with the inputs as they stand. -/
def State.runMayClip (s : State) (c : Nat) (o : ReedRunOps) (v : Nat) : Bool :=
  (countFrom v (o.vectors.toNat - v)).any fun w => (countFrom 0 256).any fun n => (s.columnSums c o w n).any mayClip

/-- One vector's column results and its clipped conversions (R365, R366, R370). The intervals are free; when the array's latest
test check passed and no group of the run is clipped, each result lies within the bound of R370 (log entry 41). `clipped` says
that an earlier vector of the run was clipped. -/
def State.convertVector (s : State) (c : Nat) (o : ReedRunOps) (v : Nat) (clipped : Bool) : State × List Int × Nat :=
  let d := s.draw
  let passed := (s.health c).passed
  let cols := (countFrom 0 256).map fun n =>
    let sums := s.columnSums c o v n
    (sums, (sums.zip (countFrom 0 16)).map fun x =>
      groupCount passed x.1 (intervalCount (s.led 0x6800 0x13 (256 * c + n)) (Config.freeCount d.1 (256 * x.2 + n))))
  let total := (cols.map fun x => (x.2.filter Prod.snd).length).foldl (· + ·) 0
  let exact := passed && total == 0 && !clipped && !s.runMayClip c o (v + 1)
  (d.2, cols.map fun x =>
    let k := (x.2.map Prod.fst).foldl (· + ·) 0
    if exact then boundCount x.1 k else k, total)

/-- A column's mean has shifted from its reference (R386): |μ − μ_ref| > μ_ref / 16 with μ_ref ≥ 16, over 4,096 vectors. -/
def shifted (ref sum : Nat) : Bool :=
  decide (16 * 4096 ≤ ref) && decide (ref < 16 * ((sum : Int) - ref).natAbs)

/-- A monitor window closes (R386, R396). -/
def State.closeWindow (s : State) (c : Nat) : State :=
  let h := s.health c
  let sums := h.windowSums.read 0 0 256
  let h' := { h with windowVectors := 0, windowConversions := 0, windowSaturated := 0, windowSums := [] }
  let s := match h.reference with
    | none => s.setHealth c { h' with reference := some sums }
    | some ref => s.setHealth c { h' with recalDue := h.recalDue || (ref.zip sums).any fun p => shifted p.1 p.2 }
  if h.windowConversions < 256 * h.windowSaturated then
    s.raise 0x0503 sevWarning ([byte c, 0, 0, 0] ++ toBytes 4 h.windowSaturated)
  else s

/-- The monitor takes a vector's results into its window (R386); a full window that is still open is closed before. -/
def State.monitor (s : State) (c groups : Nat) (counts : List Int) (clipped : Nat) : State :=
  if s.led 0x6800 0x21 = 1 then
    let s := if 4096 ≤ (s.health c).windowVectors then s.closeWindow c else s
    let h := s.health c
    s.setHealth c { h with
      windowVectors := h.windowVectors + 1
      windowConversions := h.windowConversions + 256 * groups
      windowSaturated := h.windowSaturated + clipped
      windowSums := h.windowSums.write 0 0 (((h.windowSums.read 0 0 256).zip counts).map fun p => p.1 + p.2.natAbs) }
  else s

/-- The next vector of the run that holds an array is converted, and its results are added to their slot (R365 to R368,
R391). -/
def State.contribute (s : State) (c : Nat) (q : QueueId) (place : Place) (o : ReedRunOps) (v : Nat) (clipped : Bool)
    (t : List ReedOp) : State :=
  let r := s.convertVector c o v clipped
  let s := (((r.1.bump 0x6800 0x33 c r.2.2).bump 0x6800 0x30 c 1).monitor c o.groups.toNat r.2.1 r.2.2).progress q 1
  let s := s.addSlot q o.dest.toNat (o.firstSlot.toNat + v) r.2.1
  if v + 1 < o.vectors.toNat then s.setReedOps c (.run q place o true (v + 1) (clipped || r.2.2 != 0) :: t)
  else (s.endOp c q place).kickArray c

/-- A contribution is delivered: no uncorrectable error of the array's cell, of the destination or of a router on the way
withholds it (R227, R233). -/
def delivers (hw : Hw) (cell dest : Nat) : Bool :=
  (badIn hw cell).isNone && (badIn hw dest).isNone && hw.cellBad.all fun x => x.2.1 != .fabric

/-- REED_CONTRIBUTION: waits while a test check or a recalibration is due (R385, R387), or while the array has no run that has
begun. -/
def execReedContribution (cell : CellId) (hw : Hw) (s : State) : Host.Outcome State Fault Refusal :=
  .next (if s.frontRuns && !(s.health cell).recalDue && !(s.health cell).testDue then
      match s.reedOps cell with
      | .run q place o true v k :: t =>
        if delivers hw cell o.dest.toNat then (s.contribute cell q place o v k t).meet hw else s.meet hw
      | _ => s
    else s)

/-! ### Test checks, monitoring, recalibration -/

/-- The input of a test vector on a row (R384). -/
def testInput (v row : Nat) : Int :=
  match v with
  | 0 => if between 1008 row 1015 then 255 else 0
  | 1 => if between 1016 row 1023 then 255 else 0
  | 2 => if between 1008 row 1023 then 255 else 0
  | _ => if between 1008 row 1011 then 128 else 0

/-- The expected count of a test vector in every column: S × 2^3 / 192, with the test rows' weights (R383, R384). -/
def testCount (v : Nat) : Int := (((countFrom 960 64).map fun r => testWeight r * testInput v r).foldl (· + ·) 0) * 8 / 192

/-- The single-run limits of the test vectors (R384). -/
def singleLimit (v : Nat) : Nat := [4, 4, 3, 4].getD v 0

/-- The 16-run mean limits of the test vectors (R384). -/
def meanLimit (v : Nat) : Nat := [3, 3, 2, 3].getD v 0

/-- The trim of a column (R366). -/
def State.trim (s : State) (c n : Nat) : Nat := s.led 0x6800 0x13 (256 * c + n)

/-- The count of a column in one run of a test vector, a one-group run (R366, R384). -/
def testRunCount (trim : Nat → Nat) (n : Nat) (intervals : List Int) : Int :=
  (clipCount (intervalCount (trim n) (intervals.getD n 0))).1

/-- The first count of a check outside its limit: the column, the vector and the count; columns ascend (R384). -/
def testFailure (trim : Nat → Nat) (intervals : List (List Int)) : Option (Nat × Nat × Int) :=
  (countFrom 0 256).findSome? fun col => (countFrom 0 4).findSome? fun v =>
    let n := testRunCount trim col (intervals.getD v [])
    if singleLimit v < (n - testCount v).natAbs then some (col, v, n) else none

/-- TEST_CHECK (R385): TV0 to TV3 once each, with the intervals that the converters measure. It waits while its array is
programming (R396): then it is due. -/
def execTestCheck (cell : CellId) (intervals : List (List Int)) (s : State) : Host.Outcome State Fault Refusal :=
  .next (if s.arraysRun then
      let h := s.health cell
      if s.programming cell then s.setHealth cell { h with testDue := true }
      else
        match testFailure (s.trim cell) intervals with
        | none => (s.setHealth cell { h with testDue := false, passed := true }).kickArray cell
        | some (col, v, n) =>
          ((s.setHealth cell { h with testDue := false, passed := false, recalDue := true }).bump 0x6800 0x31 cell 1).raise
            0x0501 sevInfo ([byte cell, byte col, byte v, 0] ++ toBytes 2 (BitVec.ofInt 16 n).toNat)
    else s)

/-- REED_MONITOR_WINDOW: the window closes at 4,096 vectors. -/
def execReedMonitorWindow (cell : CellId) (s : State) : Host.Outcome State Fault Refusal :=
  .next (if s.frontRuns && s.led 0x6800 0x21 == 1 && decide (4096 ≤ (s.health cell).windowVectors) then s.closeWindow cell else s)

/-- Σv of a column: the sum of its counts over the 16 runs of a vector (R387). -/
def runSum (trim : Nat → Nat) (m : Measurement) (v n : Nat) : Int :=
  (((m.getD v []).take 16).map (testRunCount trim n)).foldl (· + ·) 0

/-- A column fails the limits of the 16-run mean (R384). -/
def meanFails (trim : Nat → Nat) (m : Measurement) (n : Nat) : Bool :=
  (countFrom 0 4).any fun v => decide (16 * meanLimit v < (runSum trim m v n - 16 * testCount v).natAbs)

/-- The new trim of a column, from its trim and Σ0 − Σ1 (R387); none where the fit fails. -/
def refit (trim : Nat) (d : Int) : Option Nat :=
  if d ≤ 0 then none
  else
    let t := 512 + halfEvenDiv ((3584 + trim) * 5440 - 4096 * d) d
    if 0 ≤ t ∧ t ≤ 1023 then some t.toNat else none

/-- The new trim of a column that failed (R387); none where the fit fails. -/
def State.newTrim (s : State) (c : Nat) (m : Measurement) (n : Nat) : Option Nat :=
  refit (s.trim c n) (runSum (s.trim c) m 0 n - runSum (s.trim c) m 1 n)

/-- The trims with which an array is measured again (R387): a column that failed has its new one. -/
def State.trimAgain (s : State) (c : Nat) (m : Measurement) (n : Nat) : Nat :=
  if meanFails (s.trim c) m n then (s.newTrim c m n).getD (s.trim c n) else s.trim c n

/-- The column that fails a recalibration, the lowest of its step (R387): one that cannot be fitted, else one that fails the
limits with the new trims. -/
def State.recalFailure (s : State) (c : Nat) (r : RecalResult) : Option Nat :=
  match (countFrom 0 256).find? fun n => meanFails (s.trim c) r.first n && (s.newTrim c r.first n).isNone with
  | some n => some n
  | none => (countFrom 0 256).find? (meanFails (s.trimAgain c r.first) r.again)

/-- The trims that a recalibration changes, by column. -/
def State.changedTrims (s : State) (c : Nat) (r : RecalResult) : List (Nat × Nat) :=
  (countFrom 0 256).filterMap fun n =>
    let t := s.trimAgain c r.first n
    if t = s.trim c n then none else some (n, t)

/-- They are persisted (R387). -/
def State.setTrims (s : State) (c : Nat) (trims : List (Nat × Nat)) : State :=
  trims.foldl (fun (s : State) t => s.setStored 0x6800 0x13 (256 * c + t.1) t.2) s

/-- A recalibration of an array (R387, R388), in stage 9 too; the column that fails it. Whether the latest test check passed
it leaves as it was (R370). -/
def State.recalibrate (s : State) (c : Nat) (r : RecalResult) : State × Option Nat :=
  let s := s.bump 0x6800 0x32 c 1
  let s := s.setHealth c { (s.health c).restartMonitor with recalDue := false }
  match s.recalFailure c r with
  | none =>
    let trims := s.changedTrims c r
    ((s.setTrims c trims).raise 0x0502 sevInfo ([byte c, 0] ++ toBytes 2 trims.length), none)
  | some n => (s, some n)

/-- RECALIBRATION: waits while its array is programming (R396); a failure is a class D fault (R388). -/
def execRecalibration (cell : CellId) (result : RecalResult) (s : State) : Host.Outcome State Fault Refusal :=
  .next (if s.arraysRun && (s.health cell).recalDue && !s.programming cell then
      let r := s.recalibrate cell result
      match r.2 with
      | none => r.1.kickArray cell
      | some col => r.1.classD haltReed cell cell [byte cell, byte col, 0, 0, 0, 0, 0, 0]
    else s)

/-- Stage 9 (R388): each array runs one 16-run measurement, and one that fails it is recalibrated once; the first cell, in
ascending order, whose recalibration fails. -/
def State.testArrays (s : State) (tests : List (CellId × ArrayTest)) : List Nat → State × Option Nat
  | [] => (s, none)
  | c :: t =>
    match tests.find? fun x => x.1.val == c with
    | none => s.testArrays tests t
    | some (_, x) =>
      if (countFrom 0 256).any (meanFails (s.trim c) x.measured) then
        let r := s.recalibrate c x.recal
        if r.2.isNone then r.1.testArrays tests t else (r.1, some c)
      else s.testArrays tests t

/-! ### FRAME_SYNC -/

/-- FRAME_SYNC edges are recognized (R372, R729). -/
def State.frameRecognizes (s : State) : Bool :=
  s.power.inWindow.vio18 && (s.serving || (s.life.state == .starting && decide (4 ≤ s.life.stage)))

/-- A frame-paced run whose target lies below a count (R374). -/
def overrunBy (count : Nat) : ReedOp → Bool
  | .run _ _ o _ _ _ => o.frame != 0 && between 1 ((count + 2 ^ 32 - o.frame.toNat) % 2 ^ 32) (2 ^ 31 - 1)
  | _ => false

/-- A recognized edge (R372, R374). -/
def State.frameEdge (s : State) (fraction : BitVec 5) : State :=
  let s := s.bump 0x6800 0x40 0 1
  let s := s.setLed 0x6800 0x41 0 (fraction.toNat + 32 * (s.time.toNat % 2 ^ 59))
  let s := s.advanceCounter (s.led 0x6800 0x42) 1
  let late := (countFrom 0 16).any fun c => (s.reedOps c).any (overrunBy (s.led 0x6800 0x40))
  let s := if late then s.bump 0x6800 0x43 0 1 else s
  { s with reed := { s.reed with lastFrame := some s.power.uclk } }

/-- FRAME_SYNC_EDGE (R372, R374, R715, R729): an edge within 10 µs (1,500 UCLK) of the last recognized one is ignored and
counted; one whose levels the input cannot recognize does nothing. -/
def execFrameSyncEdge (fraction : BitVec 5) (recognizable : Bool) (s : State) : Host.Outcome State Fault Refusal :=
  .next (if s.frameRecognizes && recognizable then
      if (s.reed.lastFrame.map fun t => decide (s.power.uclk < t + 1500)).getD false then s.bump 0x6800 0x44 0 1
      else s.frameEdge fraction
    else s)

end Sys2Proof.Machine
end

