-- ==== Sys2Proof/Machine/Power.lean ====
section
/-! DEFINITION. Machine/Power.lean: the commands of the rails, the clocks, RESET_N and the sensors (chapters 03, 04, 18
and 19). -/

namespace Sys2Proof.Machine

/-- The always-on domain runs (R79, R90, R92). -/
def State.awake (s : State) : Bool := s.power.inWindow.vaux33 && !s.power.clocksStopped

/-- The lowest row among some rails. -/
def lowestRow : List Rail → Nat
  | [] => 6
  | r :: t => min (railRow r) (lowestRow t)

/-- One power-sequencing event for each rail that entered ahead of its turn (R80). -/
def State.sequenceEvents (s : State) (rails : List Rail) : State :=
  rails.foldl (fun t r => t.sequenceEvent (railRow r)) s

/-! ### VAUX33 -/

/-- Standby power arrives (R79): the root PLL locks, persisted values are read (R577), the others hold their default
(R566), a main rail found in window is a sequencing event (R80), and Uhleg boots. -/
def State.standbyPower (s : State) : State :=
  let s := { s with
    power := { s.power with
      inWindow := { s.power.inWindow with vaux33 := true }, refclk := true, rootLock := true, holdover := false
      clocksStopped := false }
    ledger := { s.ledger with live := s.ledger.store } }
  let found := mainRails.filter s.power.inWindow.get
  if found = [] then s else s.sequenceEvent (lowestRow found)

def execVaux33EntersWindow (boot : BootSample) (s : State) : Host.Outcome State Fault Refusal :=
  .next (if s.life.state = .off then s.standbyPower.bootUhleg 1 boot boot.peat else s)

/-- The part without VAUX33 (R92, R98, R657): an update in its steps 1 to 4 ends; what NOR, the fuses, the Reed cells and the pins hold stays; the rest is as it was
before VAUX33 first came. -/
def State.unpowered (s : State) : State :=
  { State.reset with
    pending := s.pending
    power := { State.reset.power with inWindow := { s.power.inWindow with vaux33 := false }, refclk := s.power.refclk }
    life := { State.reset.life with
      openAttempt := if s.life.state = .starting then some s.life.stage else s.life.openAttempt
      resetHigh := s.life.resetHigh, perstHigh := s.life.perstHigh }
    ledger := { s.ledger with live := [] }
    log := { State.reset.log with ring := s.log.ring }
    update := { s.cutUpdate.update with runtimeRan := none }
    uhleg := { State.reset.uhleg with trial := s.uhleg.trial, bankB := s.uhleg.bankB }
    fuses := s.fuses
    reed := { State.reset.reed with cond := s.reed.cond }
    fresh := s.fresh
    out := s.out }

def execVaux33LeavesWindow (s : State) : Host.Outcome State Fault Refusal :=
  .next (if s.power.inWindow.vaux33 then s.unpowered else s)

/-! ### The other rails -/

/-- The rails of a sample that enter their windows now. -/
def State.entering (s : State) (sample : List (Rail × Int)) : List Rail :=
  (sample.filter fun x => x.1 ≠ .vaux33 ∧ s.power.inWindow.get x.1 = false ∧ s.inWindow x.1 x.2).map Prod.fst

/-- The main rails that entered while a rail before them in the order was out of window (R80). -/
def State.outOfTurn (s : State) (rails : List Rail) : List Rail :=
  rails.filter fun r => (railsBefore r).any fun b => !s.power.inWindow.get b

/-- Rails enter their windows in one monitor sample (R80); in PEAT the endpoint may come up (R115). -/
def State.railsEnter (s : State) (sample : List (Rail × Int)) (peat : Option Word) : State :=
  let rails := s.entering sample
  let s := { s with power := { s.power with inWindow := rails.foldl (fun m r => m.set true r) s.power.inWindow } }
  if s.awake then
    (s.sequenceEvents (s.outOfTurn rails)).peatEndpoint peat
  else s

def execRailEntersWindow (rails : List (Rail × Int)) (peat : Option Word) (s : State) :
    Host.Outcome State Fault Refusal :=
  .next (s.railsEnter rails peat)

/-- The order of the rails can be judged anew once every main rail has left its window (R80): the four whose order is
checked, and not VPRG, which the order leaves out (log entry 132). -/
def State.railsGone (s : State) : State :=
  if mainRails.any s.power.inWindow.get then s else { s with power := { s.power with sequenceBlock := none } }

/-- A rail monitor's reading of a voltage as a U16 field. -/
def State.milliVolts (s : State) (r : Rail) (mv : Int) : Nat := (s.trimmed r mv).toNat % 2 ^ 16

/-- An excursion is counted and logged (R77). -/
def State.countExcursion (s : State) (r : Rail) (mv : Int) : State :=
  (s.bump 0x2000 0x13 (railRow r) 1).raise 0x0201 sevWarning ([byte (railRow r), 0] ++ toBytes 2 (s.milliVolts r mv))

/-- A rail leaves its window (R77, R87, R125); VPRG may rise out of it, and only its fall cuts a pulse (R78). In PEAT the
endpoint goes down, and stages 1 to 4 run again when the rails are back (log entry 133). -/
def State.railLeaves (s : State) (r : Rail) (mv : Int) : State :=
  let s := { s with power := { s.power with inWindow := s.power.inWindow.set false r } }
  let s := if r = .vprg ∧ s.belowWindow r mv then s.vprgFalls else s
  if s.awake then
    if r = .vprg then (if s.led 0x2000 0x20 = 1 then s.countExcursion r mv else s)
    else
      let s := s.railsGone
      match s.life.state with
      | .off => s
      | .standby => s
      | .starting => (s.countExcursion r mv).failStart 0x03 (railRow r)
      | .ready => (s.countExcursion r mv).abruptHalt (railRow r) (s.milliVolts r mv)
      | .inService => (s.countExcursion r mv).abruptHalt (railRow r) (s.milliVolts r mv)
      | .halted => (s.countExcursion r mv).stopRefresh
      | .peat =>
        let s := ((s.countExcursion r mv).endpointReset).setLed 0x2000 0x20 0 0
        { s with life := { s.life with peatTried := false } }
  else s.railsGone

def execRailExcursion (rail : Rail) (milliVolts : Int) (s : State) : Host.Outcome State Fault Refusal :=
  .next (if rail ≠ .vaux33 ∧ s.power.inWindow.get rail ∧ s.inWindow rail milliVolts = false
    then s.railLeaves rail milliVolts else s)

/-! ### Clocks -/

/-- The lock monitor declares loss of root PLL lock (R71, R90): the holdover begins. -/
def State.rootUnlock (s : State) (refclk : Bool) : State :=
  let s := { s with power := { s.power with rootLock := false, refclk := refclk, holdover := true } }
  (s.raise 0x0208 sevWarning [0]).classD haltRootPll 0 0 (List.replicate 8 0)

def execRootPllUnlock (refclk : Bool) (s : State) : Host.Outcome State Fault Refusal :=
  .next (if s.awake ∧ s.power.rootLock then s.rootUnlock refclk else s)

/-- The end of the holdover with REFCLK still absent (R90): the halt has been carried through, and every clock stops. -/
def State.endHoldover (s : State) : State :=
  let s := if s.serving then s.orderlyHalt quiet else s
  { s with power := { s.power with holdover := false, clocksStopped := true, mainClocks := false, laneLock := 0 } }

def execHoldoverExpiry (s : State) : Host.Outcome State Fault Refusal :=
  .next (if s.awake ∧ s.power.holdover ∧ s.power.refclk = false then s.endHoldover else s)

/-- The root PLL locks again (R90, R638): after every clock had stopped, Uhleg boots and a new round of samples begins;
within the holdover nothing had stopped. -/
def State.clockReturn (s : State) (boot : BootSample) : State :=
  let stopped := s.power.clocksStopped
  let s := { s with power := { s.power with rootLock := true, refclk := true, holdover := false, clocksStopped := false } }
  if stopped then
    let s := { s with sensors := { s.sensors with round := [] } }
    (s.restartUhleg 7).bootUhleg 7 boot boot.peat
  else s

def execClockReturn (boot : BootSample) (s : State) : Host.Outcome State Fault Refusal :=
  .next (if s.power.inWindow.vaux33 ∧ s.power.rootLock = false then s.clockReturn boot else s)

/-- A lane PLL loses lock (R91): a fault of this device while REFCLK is good. -/
def State.laneUnlock (s : State) (port : PortId) : State :=
  let s := { s with power := { s.power with laneLock := s.power.laneLock &&& ~~~((1 : BitVec 8) <<< port.val) } }
  let s := s.raise 0x0208 sevWarning [byte (1 + port)]
  if s.power.refclk then s.classD haltLanePll port port [byte port, 0, 0, 0, 0, 0, 0, 0] else s

def execLanePllUnlock (port : PortId) (s : State) : Host.Outcome State Fault Refusal :=
  .next (if s.awake ∧ s.power.laneLock.getLsbD port then s.laneUnlock port else s)

/-! ### RESET_N -/

/-- A halt cause found before RESET_N is carried to its record first (R697). -/
def State.completeHalt (s : State) : State :=
  match primaryCause s.life.causes with
  | some c => if s.serving then (s.raiseHalts (some c) s.life.causes).writeHaltReason c else s
  | none => s

/-- What RESET_N ends wherever it takes effect (R99, R123, R593, R602): the main domain and the endpoint go into reset,
open requests end unanswered, and the unlock ends. -/
def State.resetDomains (s : State) : State :=
  let s := s.completeHalt
  let s := (s.stopPorts (some 2)).mainReset.endpointReset
  let s := { s with
    mailbox := .blank
    can := { s.can with downloads := [] }
    life := { s.life with
      stage := 0, causes := [], drain := none, serveOkLow := true, haltAsserted := false, heldInReset := false } }
  (s.setLed 0x2000 0x20 0 0).endUnlock 3

/-- RESET_N is asserted (R98, R105, R116, R117, R697). -/
def State.resetAsserted (s : State) (bootSafe : Bool) : State :=
  let s := { s with life := { s.life with resetHigh := false } }
  match s.life.state with
  | .off => s
  | .peat =>
    let s := s.resetDomains
    let s := { s with life := { s.life with bootSafe := bootSafe } }
    if bootSafe = false ∧ s.led 0x1100 0x03 ≤ 2 then (s.enterState .standby).restartUhleg 6
    else { s with life := { s.life with peatTried := false } }
  | .starting => ((s.stopPorts (some 2)).endAttempt 0x01 0).resetDomains.enterState .standby
  | .standby => s.resetDomains
  | .ready => s.resetDomains.enterState .standby
  | .inService => s.resetDomains.enterState .standby
  | .halted => s.resetDomains.enterState .standby

def execResetNAssert (nanoSeconds : Nat) (bootSafe : Bool) (s : State) : Host.Outcome State Fault Refusal :=
  .next (if nanoSeconds < 1000 then s else s.resetAsserted bootSafe)

/-! ### Temperature -/

/-- A conversion that was missed (R93). It is no sample: an unconfirmed sample before it stays, and the next sample is the
one that follows it (log entry 134). -/
def State.missSample (s : State) (n : Nat) : State :=
  let x := s.sensor n
  if x.missed = 0 then s.setSensor n { x with missed := 1 }
  else (s.setSensor n { x with missed := 0, failed := true }).sensorFails n 2

/-- A sample in 1/400 °C: the raw conversion in 1/16 °C and the offset of 0x9000:11 in 0.01 °C (R641). -/
def State.offsetSample (s : State) (n : Nat) (raw : Int) : Int :=
  raw * 25 + (BitVec.ofNat 32 (s.led 0x9000 0x11 n)).toInt * 4

/-- A temperature sensor ends its conversion (R85, R93, R641): none is a missed conversion; the range is judged on the
raw value. -/
def State.convert (s : State) (n : Nat) (raw : Option Int) (selfCheck : Bool) : State :=
  if (s.sensor n).failed then s
  else if selfCheck then (s.setSensor n { s.sensor n with failed := true }).sensorFails n 3
  else
    match raw with
    | none => s.missSample n
    | some r =>
      if r < -320 ∨ 2400 < r then (s.setSensor n { s.sensor n with failed := true }).sensorFails n 1
      else s.compareSample n (s.offsetSample n r)

def execSensorConversion (sensor : Fin 28) (raw : Option Int) (selfCheck : Bool) (s : State) :
    Host.Outcome State Fault Refusal :=
  .next (if s.awake then s.convert sensor raw selfCheck else s)

/-- A rail monitor, VPRG_SENSE or a lock monitor fails (R642). -/
def State.monitorFails (s : State) (n : Nat) (missed : Bool) : State :=
  let s := { s with sensors := { s.sensors with monitorsFailed := n :: s.sensors.monitorsFailed } }
  s.sensorFails n (if missed then 2 else 3)

/-- The numbers of R640 that are monitors: 32 to 38 can miss conversions, 40 to 48 check themselves. -/
def isMonitor (n : Nat) (missed : Bool) : Bool := between 32 n 38 || (!missed && between 40 n 48)

def execMonitorCheckFailed (sensor : Fin 49) (missed : Bool) (s : State) : Host.Outcome State Fault Refusal :=
  .next (if s.awake ∧ isMonitor sensor missed ∧ sensor.val ∉ s.sensors.monitorsFailed
    then s.monitorFails sensor missed else s)

/-! ### Halts -/

/-- The cause that CLASS_D_HALT brings itself: an uncorrectable error in the Oven or a sequencer (R678). -/
def State.frontEndError (s : State) : Option FrontEndUnit → State
  | none => s
  | some u => s.classD haltFrontEnd (frontEndNumber u) (frontEndNumber u) [byte (frontEndNumber u), 0, 0, 0, 0, 0, 0, 0]

/-- The orderly halt (R680) over every cause detected. -/
def execClassDHalt (frontEnd : Option FrontEndUnit) (hw : Hw) (s : State) : Host.Outcome State Fault Refusal :=
  .next (let t := s.frontEndError frontEnd
    if t.serving then t.orderlyHalt hw else t)

/-- An uncorrectable error in a core's cache (R678). -/
def execCoreUncorrectable (core : Fin 8) (cache : CoreCache) (s : State) : Host.Outcome State Fault Refusal :=
  let code : Byte := match cache with
    | .l1i => 1
    | .l1d => 2
    | .l2 => 3
  .next (s.classD haltCore core core [byte core, code, 0, 0, 0, 0, 0, 0])

/-! ### Uhleg's restarts -/

/-- Uhleg boots (R638, R659): the end of a restart whose cause a command before it left. Programmings that wait for it go on
(R376, R395). -/
def execUhlegBoot (boot : BootSample) (s : State) : Host.Outcome State Fault Refusal :=
  .next (match s.uhleg.phase with
    | .restarting cause =>
      if s.awake then
        let s := s.bootUhleg cause boot boot.peat
        if s.frontRuns then s.kickArrays else s
      else s
    | _ => s)

def execUhlegWatchdogExpiry (s : State) : Host.Outcome State Fault Refusal :=
  .next (if s.uhlegRuns then s.restartUhleg 3 else s)

def execUhlegSramError (s : State) : Host.Outcome State Fault Refusal :=
  .next (if s.uhlegRuns then s.restartUhleg 4 else s)

/-- An activated Uhleg image has run 10 s without a restart (R661). -/
def execUhlegTrialTimer (s : State) : Host.Outcome State Fault Refusal :=
  .next (if s.uhlegRuns then s.uhlegTrialPassed else s)

/-! ### The log -/

/-- The oldest record of the front reaches NOR, at the first try or the repeat; when both fail, writing stops (R645, R668);
nothing is written while a halt's severities are not settled (R679). -/
def execLogNorWrite (firstOk repeatOk : Bool) (s : State) : Host.Outcome State Fault Refusal :=
  .next (if s.uhlegRuns ∧ s.log.stopped = false ∧ s.log.front ≠ [] then
      if firstOk || repeatOk then s.writeLog
      else ({ s with log := { s.log with stopped := true } }).raise 0x0207 sevWarning [63, 3]
    else s)

/-- The store moves to its other half (R650): the latest record of every listed entry is copied. The spec gives no size of
a record, so that the command itself says that the half is three quarters full. -/
def execLedgerStoreCompaction (s : State) : Host.Outcome State Fault Refusal :=
  .next (if s.uhlegRuns then
      { s with ledger := { s.ledger with
          half := !s.ledger.half, fill := s.ledger.store.length, sequence := s.ledger.sequence + 1 } }
    else s)

end Sys2Proof.Machine
end

