-- ==== Sys2Proof/Machine/Records.lean ====
section
/-! DEFINITION. Machine/Records.lean: the 64 B records that spell the queue commands, written from the byte tables of R405,
R408 and R409; reserved bytes are zero. -/

namespace Sys2Proof.Machine

/-- A gap of n reserved bytes. -/
def gap (n : Nat) : List Byte := List.replicate n 0

/-- Bytes 1 to 7 of a record (R405). -/
def headerBytes (h : Header) : List Byte :=
  toBytes 1 (h.barrier.toNat + 2 * h.irq.toNat) ++ toBytes 2 h.mask.toNat ++
    toBytes 2 (h.counter.toNat + 2 ^ 15 * h.enable.toNat) ++ gap 2

/-- A record: opcode, header, and the operands from byte 8 on (R405). -/
def recordOf (opcode : Byte) (h : Header) (body : List Byte) : List Byte :=
  [opcode] ++ headerBytes h ++ padTo 0 56 body

/-- WAIT (R408). -/
def waitBody (o : WaitOps) : List Byte := toBytes 2 o.counter.toNat ++ [o.mode] ++ gap 5 ++ toBytes 8 o.target.toNat

/-- ADVANCE and SET_EVENT (R408). -/
def eventBody (o : EventOps) : List Byte := toBytes 2 o.counter.toNat ++ gap 6 ++ toBytes 8 o.amount.toNat

/-- WRITE (R408). -/
def writeBody (o : WriteOps) : List Byte :=
  [o.size, o.dest] ++ gap 6 ++ toBytes 8 o.addr.toNat ++ toBytes 8 o.value.toNat

/-- BAKE (R408). -/
def bakeBody (o : BakeOps) : List Byte := toBytes 2 o.recipe.toNat ++ [o.count] ++ gap 5 ++ toBytes 8 o.params.toNat

/-- ENQUEUE (R408). -/
def enqueueBody (o : EnqueueOps) : List Byte :=
  [o.target, o.flags] ++ toBytes 2 o.count.toNat ++ gap 4 ++ toBytes 8 o.source.toNat

/-- RING (R408). -/
def ringBody (o : RingOps) : List Byte := [o.target] ++ gap 1 ++ toBytes 2 o.wakes.toNat

/-- PARK (R408). -/
def parkBody (o : ParkOps) : List Byte :=
  toBytes 2 o.recipe.toNat ++ [o.count] ++ gap 1 ++ toBytes 2 o.slots.toNat ++ gap 2 ++ toBytes 8 o.params.toNat

/-- RECIPE_LOAD (R408). -/
def recipeLoadBody (o : RecipeLoadOps) : List Byte :=
  toBytes 2 o.recipe.toNat ++ gap 2 ++ toBytes 4 o.length.toNat ++ toBytes 8 o.addr.toNat

/-- RECIPE_DROP (R408). -/
def recipeDropBody (recipe : Half) : List Byte := toBytes 2 recipe.toNat

/-- QUEUE_CTL with an action (R408). -/
def controlBody (action : Byte) (o : ControlOps) : List Byte :=
  [o.target, action] ++ gap 2 ++ toBytes 2 o.first.toNat ++ toBytes 2 o.count.toNat

/-- DMA_COPY (R409). -/
def dmaBody (o : DmaOps) : List Byte :=
  [o.sourceKind, o.destKind] ++ toBytes 2 o.repeats.toNat ++ toBytes 4 o.length.toNat ++ toBytes 8 o.source.toNat ++
    toBytes 8 o.dest.toNat ++ toBytes 4 o.sourceStride.toNat ++ toBytes 4 o.destStride.toNat ++
    toBytes 2 o.multicast.toNat

/-- ATOMIC with an operation code of R178 (R409). -/
def atomicBody (code : Byte) (o : AtomicOps) : List Byte :=
  [code, o.flags] ++ gap 2 ++ toBytes 4 o.result.toNat ++ toBytes 8 o.addr.toNat ++ toBytes 8 o.value.toNat ++
    toBytes 8 o.compare.toNat ++ toBytes 2 o.n.toNat ++ toBytes 2 o.count.toNat ++ toBytes 2 o.event.toNat ++
    toBytes 2 o.ordinal.toNat

/-- KNEAD (R409). -/
def kneadBody (o : KneadOps) : List Byte :=
  [o.format, o.mode, o.variant, o.inFormat] ++ toBytes 2 o.firstLane.toNat ++ toBytes 2 o.lanes.toNat ++
    toBytes 2 o.columns.toNat ++ gap 2 ++ toBytes 4 o.tile.toNat ++ toBytes 4 o.window.toNat ++
    toBytes 4 o.inBase.toNat ++ toBytes 4 o.inStride.toNat ++ toBytes 4 o.loadBase.toNat ++ toBytes 4 o.loadStride.toNat

/-- DRAIN (R409). -/
def drainBody (o : DrainOps) : List Byte :=
  [o.format] ++ gap 3 ++ toBytes 2 o.firstLane.toNat ++ toBytes 2 o.lanes.toNat ++ toBytes 2 o.columns.toNat ++ gap 2 ++
    toBytes 4 o.outBase.toNat ++ toBytes 4 o.outStride.toNat

/-- SIEVE with a sub-operation of R410 (R409). -/
def sieveBody (code : Byte) (o : SieveOps) : List Byte :=
  [code, o.aSource, o.formats, o.flags] ++ toBytes 4 o.n.toNat ++ toBytes 2 o.vectors.toNat ++ gap 2 ++
    toBytes 4 o.a.toNat ++ toBytes 4 o.b.toNat ++ toBytes 4 o.c.toNat ++ toBytes 4 o.d.toNat ++ toBytes 4 o.stride.toNat ++
    toBytes 4 o.immF.toNat ++ toBytes 4 o.immU.toNat ++ toBytes 2 o.first.toNat

/-- ROPE (R409). -/
def ropeBody (o : RopeOps) : List Byte :=
  [o.pairing, o.source] ++ toBytes 2 o.heads.toNat ++ toBytes 2 o.d.toNat ++ toBytes 2 o.r.toNat ++
    toBytes 2 o.firstLane.toNat ++ toBytes 2 o.vectors.toNat ++ toBytes 4 o.table.toNat ++ toBytes 4 o.positions.toNat ++
    toBytes 4 o.inBase.toNat ++ toBytes 4 o.inStride.toNat ++ toBytes 4 o.outBase.toNat ++ toBytes 4 o.outStride.toNat

/-- STAT with an action (R409). -/
def statBody (action : Byte) (o : StatOps) : List Byte :=
  [action] ++ gap 3 ++ toBytes 2 o.firstRow.toNat ++ toBytes 2 o.rows.toNat ++ toBytes 4 o.offset.toNat

/-- KV_APPEND (R409). -/
def appendBody (o : AppendOps) : List Byte :=
  [o.pool] ++ gap 1 ++ toBytes 2 o.layer.toNat ++ toBytes 4 o.position.toNat ++ toBytes 2 o.count.toNat ++ gap 2 ++
    toBytes 4 o.source.toNat ++ toBytes 8 o.list.toNat

/-- KV_ATTEND (R409). -/
def attendBody (o : AttendOps) : List Byte :=
  [o.pool] ++ gap 1 ++ toBytes 2 o.layer.toNat ++ toBytes 2 o.queries.toNat ++ toBytes 2 o.event.toNat ++
    toBytes 8 o.table.toNat ++ toBytes 4 o.scale.toNat ++ toBytes 4 o.queryBase.toNat ++ toBytes 4 o.queryStride.toNat ++
    toBytes 4 o.outBase.toNat ++ toBytes 4 o.outStride.toNat

/-- BUILD_TABLES and PACK_DELTAS (R409). -/
def deltaBody (o : DeltaOps) : List Byte :=
  [o.format, o.variant, o.flags] ++ gap 1 ++ toBytes 4 o.firstTile.toNat ++ toBytes 4 o.tiles.toNat ++
    toBytes 4 o.tensorTag.toNat ++ toBytes 4 o.baseTag.toNat ++ gap 4 ++ toBytes 8 o.baseStream.toNat ++
    toBytes 8 o.variantFull.toNat ++ toBytes 8 o.histogram.toNat ++ toBytes 8 o.descriptor.toNat

/-- REED_RUN (R409). -/
def reedRunBody (o : ReedRunOps) : List Byte :=
  [o.g0, o.groups, o.mode, o.gain, o.vectors, o.dest, o.firstSlot] ++ gap 1 ++ toBytes 4 o.inBase.toNat ++
    toBytes 4 o.inStride.toNat ++ toBytes 4 o.frame.toNat

/-- REED_READOUT (R409). -/
def readoutBody (o : ReadoutOps) : List Byte :=
  [o.firstSlot, o.slots] ++ toBytes 2 o.columns.toNat ++ [o.format, o.flags] ++ gap 2 ++ toBytes 4 o.scales.toNat ++
    toBytes 4 o.m.toNat ++ toBytes 4 o.outBase.toNat ++ toBytes 4 o.outStride.toNat

/-- REED_PROGRAM (R409). -/
def reedProgramBody (o : ReedProgramOps) : List Byte :=
  [o.group] ++ gap 3 ++ toBytes 4 o.source.toNat ++ toBytes 4 o.status.toNat ++ gap 4 ++ toBytes 8 o.tag.toNat

end Sys2Proof.Machine
end

