-- ==== Sys2Proof/Machine/Oven.lean ====
section
/-! DEFINITION. Machine/Oven.lean: the commands that run in the Oven (R407 to R430): events, WRITE, bakes and recipes,
ENQUEUE, RING, proofers, queue control. -/

namespace Sys2Proof.Machine

/-- The mask of a command that runs in the Oven is 0 (R407). -/
def noCells (h : Header) : Bool := h.mask == 0

/-! ### NOP, events, WAIT -/

/-- NOP does nothing but take its place in the queue (R407). -/
def execNop (x : Issue) (s : State) : Host.Outcome State Fault Refusal :=
  .next (s.issue x 0x00 (fun _ => true) (fun t _ => t.headerCheck x.queue 0x00 x.header (noCells x.header) false)
    fun _ t => .ok t .now)

/-- The counter that an ADVANCE or SET_EVENT names is one, and in a user queue's range (R413, R414). -/
def State.counterCheck (s : State) (q c : Nat) : Option QFault :=
  if 4096 ≤ c then some (operandFault 8)
  else if !isKernel q && !s.inRange q c then some (ovenFault badEvent c)
  else none

/-- ADVANCE adds its amount, 1 to 2^32 (R408, R416). -/
def execAdvance (x : Issue) (o : EventOps) (s : State) : Host.Outcome State Fault Refusal :=
  .next (s.issue x 0x02 (fun r => readEvent r = o)
    (fun t _ => firstFault [t.headerCheck x.queue 0x02 x.header (noCells x.header) false,
      t.counterCheck x.queue o.counter.toNat, failUnless (between 1 o.amount.toNat (2 ^ 32)) (operandFault 16)])
    fun _ t => .ok (t.advanceCounter o.counter.toNat o.amount.toNat) .now)

/-- SET_EVENT sets the value and clears the error bit (R408, R416). -/
def execSetEvent (x : Issue) (o : EventOps) (s : State) : Host.Outcome State Fault Refusal :=
  .next (s.issue x 0x03 (fun r => readEvent r = o)
    (fun t _ => firstFault [t.headerCheck x.queue 0x03 x.header (noCells x.header) false,
      t.counterCheck x.queue o.counter.toNat, failUnless (decide (o.amount.toNat < 2 ^ 63)) (operandFault 16)])
    fun _ t => .ok (t.setEvent o.counter.toNat o.amount.toNat) .now)

/-- The records of the ring from one index up to another, as the memory or the host's answers give them (R403). -/
def State.ringRecords (s : State) (q : Nat) (host : List HostReply) (first count : Nat) : List (List Byte) :=
  let x := s.queue q
  if x.ringHost then
    (host.take count).map fun h => match h with
      | .data l => l
      | _ => []
  else
    (countFrom first count).map fun i =>
      match s.cacheableAt (x.recordAddress i) 64 with
      | some a => s.memRead a 64
      | none => []

/-- A discarded record sets the error bit of the counter that its header names (R418). -/
def State.discard (s : State) (r : List Byte) : State :=
  let h := headerOf r
  if h.enable ∧ r.length = 64 then s.errCounter h.counter.toNat else s

/-- The rest of the submission is discarded: HEAD moves to the next submission, or to TAIL (R418). -/
def State.cancelRing (s : State) (q : Nat) (host : List HostReply) : State :=
  let x := s.queue q
  let stop := match (s.work q).submissions with
    | p :: _ => p
    | [] => x.tail.toNat
  let n := (stop + 2 ^ 32 - x.head.toNat) % 2 ^ 32
  let s := (s.ringRecords q host x.head.toNat n).foldl State.discard s
  s.setQueue q { s.queue q with head := BitVec.ofNat 32 stop }

/-- The nodes of a bake that are not yet issued are discarded (R418). -/
def State.cancelBake (s : State) (q n : Nat) : State :=
  match (s.work q).bake? n with
  | none => s
  | some b =>
    let gone := (b.records.zip b.nodes).filter fun x => x.2 == .unissued
    let s := gone.foldl (fun s x => s.discard x.1) s
    s.setWork q ((s.work q).setBake { b with
      nodes := b.nodes.map fun y => if y = .unissued then .done else y
      cancelled := true })

/-- The Oven reads the parameter block of a BAKE that has been published, ahead of its issue (R423): the bytes as they are now. -/
def State.readParams (s : State) (q i : Nat) (r : List Byte) : State :=
  let o := readBake r
  let n := 8 * o.count.toNat
  match s.cacheableAt o.params.toNat n with
  | some a =>
    let w := s.work q
    s.setWork q { w with blocks := w.blocks ++ [⟨i, o.params.toNat, s.memRead a n⟩] }
  | none => s

/-- The parameter blocks of the BAKEs from a ring index on, up to the first WAIT or a record that cannot be read (R423). -/
def State.readBlocks (q : Nat) : List Nat → State → State
  | [], s => s
  | i :: t, s =>
    match (s.cacheableAt ((s.queue q).recordAddress i) 64).map fun a => s.memRead a 64 with
    | none => s
    | some r =>
      if recNat r 0 1 = 0x01 then s
      else State.readBlocks q t
        (if recNat r 0 1 = 0x05 ∧ (s.work q).blocks.all (fun b => b.position != i) then s.readParams q i r else s)

/-- Parameter blocks are read when a doorbell or an ENQUEUE publishes BAKEs that no WAIT precedes, and at the completion of the
last WAIT that precedes them (R423). Of a ring in host memory they are read at the issue (log entry 138). -/
def State.readAhead (s : State) (q : Nat) : State :=
  let x := s.queue q
  if x.ringHost || (s.work q).ringWaits then s
  else State.readBlocks q ((countFrom x.head.toNat (x.tail - x.head).toNat).map fun i => i % 2 ^ 32) s

/-- The block that the Oven has read ahead for the BAKE at a place. -/
def State.readBlock (s : State) (q : Nat) (place : Place) (addr n : Nat) : Option (List Byte) :=
  match place with
  | .ring i => ((s.work q).blocks.find? fun b => b.position == i && b.addr == addr && b.bytes.length == n).map ParamBlock.bytes
  | .node _ _ => none

/-- A WAIT completes (R415, R418): the error bit sets WAIT_ERR, and in CANCEL mode discards what follows it. -/
def State.waitDone (s : State) (q : Nat) (w : PendingWait) (host : List HostReply) : State :=
  let err := (s.counter w.counter).err
  let s := if err then s.setQueue q { s.queue q with waitErr := true } else s
  let s := if err && w.cancel then
      match w.place with
      | .ring _ => s.cancelRing q host
      | .node n _ => s.cancelBake q n
    else s
  (s.finish q w.place w.header).readAhead q

/-- WAIT (R408, R415, R443): it completes at once when its counter already has reached the target. -/
def execWait (x : Issue) (o : WaitOps) (s : State) : Host.Outcome State Fault Refusal :=
  .next (s.issue x 0x01 (fun r => readWait r = o)
    (fun t _ => firstFault [t.headerCheck x.queue 0x01 x.header (noCells x.header) false,
      failUnless (decide (o.counter.toNat < 4096)) (operandFault 8), failUnless (decide (o.mode.toNat ≤ 1)) (operandFault 10),
      failUnless (decide (o.target.toNat < 2 ^ 63)) (operandFault 16)])
    fun hw t =>
      let w : PendingWait := ⟨x.place, x.header, o.counter.toNat, o.target.toNat, o.mode == 1⟩
      if t.reached w.counter w.target then .ok (t.waitDone x.queue w hw.host) .own
      else
        let k := t.work x.queue
        .ok (t.setWork x.queue { k with waits := k.waits ++ [w] }) .own)

/-- A pending WAIT whose counter has reached its target, or has its error bit set, completes (R415, R418). -/
def execWaitCompletion (queue : QueueId) (place : Place) (hw : Hw) (s : State) : Host.Outcome State Fault Refusal :=
  .next (match (s.work queue).waits.find? fun w => w.place == place with
    | some w =>
      if s.frontRuns && s.reached w.counter w.target then
        let k := s.work queue
        (s.setWork queue { k with waits := k.waits.filter fun v => v.place != place }).waitDone queue w hw.host
      else s
    | none => s)

/-! ### WRITE -/

/-- What is wrong with the operands of a WRITE (R408, R549). -/
def State.writeCheck (s : State) (o : WriteOps) : Option QFault :=
  firstFault [failUnless (decide (o.size.toNat ∈ [1, 2, 4, 8])) (operandFault 8),
    failUnless (decide (o.dest.toNat ≤ 1)) (operandFault 9),
    if o.dest = 0 then s.cacheFault o.addr.toNat o.size.toNat o.size.toNat
    else if o.addr.toNat % o.size.toNat ≠ 0 then some (ovenFault badCaching 0 o.addr.toNat)
    else failUnless (decide (o.addr.toNat < 2 ^ 47)) (ovenFault badAddress 0 o.addr.toNat)]

/-- WRITE stores the low bytes of its value, in cacheable memory or at a host bus address (R408). -/
def execWrite (x : Issue) (o : WriteOps) (s : State) : Host.Outcome State Fault Refusal :=
  .next (s.issue x 0x04 (fun r => readWrite r = o)
    (fun t _ => firstFault [t.headerCheck x.queue 0x04 x.header (noCells x.header) false, t.writeCheck o])
    fun hw t =>
      let bytes := toBytes o.size.toNat o.value.toNat
      if o.dest = 0 then .ok (t.store hw (o.addr.toNat % 2 ^ 44) bytes) .now
      else
        let w := t.hostWrite o.addr.toNat bytes
        if w.2 then .ok w.1 .now else .bad (w.1.progress x.queue 1) (ovenFault badAddress 0 o.addr.toNat))

/-! ### Recipes -/

/-- Counts and flags of a recipe image (R419). -/
structure RecipeHead where
  tag : Nat
  nodes : Nat
  edges : Nat
  patches : Nat
  params : Nat
  kernel : Bool
  deriving DecidableEq, Repr

/-- The head of an image (R419). -/
def recipeHead (l : List Byte) : RecipeHead :=
  ⟨imageNat l 0 4, imageNat l 4 2, imageNat l 6 2, imageNat l 8 2, imageNat l 10 1, bit (imageNat l 11 1) 0⟩

/-- Where the patch table begins (R419). -/
def RecipeHead.patchesAt (h : RecipeHead) : Nat := (64 + 64 * h.nodes + 4 * h.edges + 7) / 8 * 8

/-- The image length of R419. -/
def RecipeHead.length (h : RecipeHead) : Nat := h.patchesAt + 8 * h.patches

/-- The node records of an image. -/
def recipeNodes (l : List Byte) : List (List Byte) :=
  (countFrom 0 (recipeHead l).nodes).map fun i => (l.drop (64 + 64 * i)).take 64

/-- The edges of an image. -/
def recipeEdges (l : List Byte) : List (Nat × Nat) :=
  let h := recipeHead l
  (countFrom 0 h.edges).map fun i =>
    let e := imageNat l (64 + 64 * h.nodes + 4 * i) 4
    (bits e 0 12, bits e 12 12)

/-- The patch entries of an image, as numbers. -/
def recipePatches (l : List Byte) : List Nat :=
  let h := recipeHead l
  (countFrom 0 h.patches).map fun i => imageNat l (h.patchesAt + 8 * i) 8

/-- The width in bytes of a patch entry (R421). -/
def patchWidth (e : Nat) : Nat := 2 ^ bits e 18 2

/-- A patch entry is one that R422 lets pass. -/
def patchOk (h : RecipeHead) (e : Nat) : Bool :=
  decide (bits e 0 12 < h.nodes) && decide (bits e 20 6 < h.params) && decide (2 ≤ bits e 12 6) &&
    decide (bits e 12 6 % patchWidth e = 0) && decide (bits e 26 2 < 2)

/-- A node is one that R422 lets pass. -/
def nodeOk (h : RecipeHead) (r : List Byte) : Bool :=
  let op := recNat r 0 1
  decide (op ∈ opcodes) && decide (op ∉ [0x05, 0x08, 0x09, 0x0A]) && !bit (recNat r 1 1) 0 &&
    (h.kernel || decide (op ∉ kernelOpcodes))

/-- An image that RECIPE_LOAD accepts (R419 to R422). -/
def recipeOk (l : List Byte) : Bool :=
  let h := recipeHead l
  between 1 h.nodes 4096 && decide (h.edges ≤ 16384) && decide (h.patches ≤ 512) && decide (h.params ≤ 64) &&
    decide (l.length = h.length) &&
    ((recipeEdges l).all fun e => decide (e.1 < e.2) && decide (e.2 < h.nodes)) &&
    (recipePatches l).all (patchOk h) && (recipeNodes l).all (nodeOk h)

/-- A patch entry applied to the nodes with the parameters of a bake (R421, R423). -/
def applyPatch (params : List Nat) (nodes : List (List Byte)) (e : Nat) : List (List Byte) :=
  let i := bits e 0 12
  let off := bits e 12 6
  let w := patchWidth e
  let v := (params.getD (bits e 20 6) 0 >>> bits e 32 6) % 2 ^ (8 * w)
  match nodes[i]? with
  | none => nodes
  | some r =>
    let field := if bits e 26 2 = 1 then (recNat r off w + v) % 2 ^ (8 * w) else v
    setAt nodes i (r.take off ++ toBytes w field ++ r.drop (off + w))

/-- A loaded recipe. -/
def State.recipe (s : State) (id : Nat) : Option Recipe := s.front.recipes.get none id

/-- 4 KiB units of the recipe store (0x6000:21). -/
def State.storeUnits (s : State) : Nat := s.led 0x6000 0x21 * 256

/-- The first free span of units at the lowest address (R422), the recipe that is replaced counted as free (log entry
30). -/
def State.freeSpan (s : State) (id units : Nat) : Option Nat :=
  let taken := (s.front.recipes.filter fun x => x.1 ≠ id).filterMap Prod.snd
  let candidates := 0 :: taken.map fun r => r.unit + r.units
  let fits (u : Nat) : Bool :=
    decide (u + units ≤ s.storeUnits) && taken.all fun r => !overlaps u units r.unit r.units
  (candidates.filter fits).min?

/-- A new bake of a recipe (R423): its nodes copied and patched. -/
def newBake (w : QueueWork) (id position : Nat) (image : List Byte) (params : List Nat) (h : Header) (wake : Bool) :
    Bake :=
  let nodes := (recipePatches image).foldl (applyPatch params) (recipeNodes image)
  { number := w.nextBake, recipe := id, tag := (recipeHead image).tag, position := position, header := h
    records := nodes, edges := recipeEdges image, nodes := nodes.map fun _ => .unissued, wake := wake
    cancelled := false }

/-- A bake begins. -/
def State.startBake (s : State) (q : Nat) (b : Bake) : State :=
  let w := s.work q
  s.setWork q { w with bakes := w.bakes ++ [b], nextBake := w.nextBake + 1 }

/-- Parameters of a block (R423): U64s. -/
def paramsOf (l : List Byte) : List Nat := (chunks 8 l).map ofBytes

/-- A user queue names a recipe flagged KERNEL (R413). -/
def State.kernelRecipe (s : State) (id : Nat) : Bool :=
  ((s.recipe id).map fun r => (recipeHead r.image).kernel).getD false

/-- The recipe is not loaded or takes another number of parameters (R423): the tag concerned. -/
def State.recipeFault (s : State) (id count : Nat) : Option QFault :=
  match s.recipe id with
  | none => some (ovenFault badRecipe 0)
  | some r =>
    let h := recipeHead r.image
    if h.params = count then none else some (ovenFault badRecipe h.tag)

/-- What BAKE checks before its work (R408, R411, R413). -/
def State.bakeCheck (s : State) (x : Issue) (o : BakeOps) : Option QFault :=
  firstFault [s.headerCheck x.queue 0x05 x.header (noCells x.header) (s.kernelRecipe o.recipe.toNat),
    failUnless (decide (o.recipe.toNat < 1024)) (operandFault 8), failUnless (decide (o.count.toNat ≤ 64)) (operandFault 10),
    if o.count = 0 then failUnless (decide (o.params.toNat % 8 = 0)) (ovenFault badCaching 0 o.params.toNat)
    else s.cacheFault o.params.toNat (8 * o.count.toNat) 8,
    s.recipeFault o.recipe.toNat o.count.toNat]

/-- A bake of a loaded recipe with the parameters at a global address, or with the block that was read ahead (R423). -/
def State.bakeWith (s : State) (hw : Hw) (q id count params position : Nat) (h : Header) (wake : Bool)
    (ahead : Option (List Byte)) : Done :=
  match s.recipeFault id count, s.recipe id with
  | none, some r =>
    let d := s.load hw (params % 2 ^ 44) (8 * count)
    match d.2 with
    | some bytes => .ok (d.1.startBake q (newBake (d.1.work q) id position r.image (paramsOf (ahead.getD bytes)) h wake)) .own
    | none => .stuck d.1
  | some f, _ => .bad s f
  | none, none => .bad s (ovenFault badRecipe 0)

/-- BAKE (R423): it completes with its last node. -/
def execBake (x : Issue) (o : BakeOps) (s : State) : Host.Outcome State Fault Refusal :=
  .next (s.issue x 0x05 (fun r => readBake r = o) (fun t _ => t.bakeCheck x o)
    fun hw t => t.bakeWith hw x.queue o.recipe.toNat o.count.toNat o.params.toNat (t.whereIs x.queue x.place).2.2 x.header
      false (t.readBlock x.queue x.place o.params.toNat (8 * o.count.toNat)))

/-- What RECIPE_LOAD checks before it reads the image. -/
def State.recipeLoadCheck (s : State) (x : Issue) (o : RecipeLoadOps) : Option QFault :=
  firstFault [s.headerCheck x.queue 0x09 x.header (noCells x.header) false,
    failUnless (decide (o.recipe.toNat < 1024)) (operandFault 8), s.cacheFault o.addr.toNat (max 1 o.length.toNat) 64]

/-- An image is loaded (R422): validated, then copied into the store. -/
def State.loadRecipe (s : State) (hw : Hw) (id : Nat) (image : List Byte) : Done :=
  let h := recipeHead image
  if !recipeOk image then .bad s (ovenFault badRecipe h.tag)
  else
    let units := (image.length + 4095) / 4096
    match s.freeSpan id units with
    | none => .bad s (ovenFault storeFull units)
    | some u =>
      let s := s.store hw ((s.led 0x6000 0x20 + 4096 * u) % 2 ^ 44) image
      .ok { s with front := { s.front with recipes := s.front.recipes.put id (some ⟨image, u, units⟩) } } .now

/-- RECIPE_LOAD (R422). -/
def execRecipeLoad (x : Issue) (o : RecipeLoadOps) (s : State) : Host.Outcome State Fault Refusal :=
  .next (s.issue x 0x09 (fun r => readRecipeLoad r = o) (fun t _ => t.recipeLoadCheck x o)
    fun hw t =>
      let d := t.load hw (o.addr.toNat % 2 ^ 44) o.length.toNat
      match d.2 with
      | some image => d.1.loadRecipe hw o.recipe.toNat image
      | none => .stuck d.1)

/-- RECIPE_DROP (R422, R446): an id that is not loaded is left alone. -/
def execRecipeDrop (x : Issue) (recipe : Half) (s : State) : Host.Outcome State Fault Refusal :=
  .next (s.issue x 0x0A (fun r => rec16 r 8 = recipe)
    (fun t _ => firstFault [t.headerCheck x.queue 0x0A x.header (noCells x.header) false,
      failUnless (decide (recipe.toNat < 1024)) (operandFault 8)])
    fun _ t => .ok { t with front := { t.front with recipes := t.front.recipes.erase recipe.toNat } } .now)

/-! ### ENQUEUE and RING -/

/-- Why a target takes no records (R426), if so. -/
def State.enqueueFault (s : State) (target count : Nat) : Option QFault :=
  let t := s.queue target
  let w := s.work target
  let used := (t.tail.toNat + 2 ^ 32 - t.head.toNat) % 2 ^ 32
  if t.state = .disabled ∨ !t.enable ∨ w.proofer.isSome ∨ t.state = .faulted ∨ t.state = .resetting ∨
      !t.producerEnqueue then some (ovenFault badTarget target)
  else if t.ringHost then some (ovenFault badAddress 0)
  else if t.ringSize < used + w.unpublished + count then some (ovenFault ringFull target)
  else none

/-- Records written to a target's ring from a position on (R403, R426). -/
def State.putRecords (s : State) (hw : Hw) (target : Nat) : Nat → List (List Byte) → State
  | _, [] => s
  | i, r :: t =>
    match s.cacheableAt ((s.queue target).recordAddress i) 64 with
    | some a => (s.store hw a r).putRecords hw target (i + 1) t
    | none => s.putRecords hw target (i + 1) t

/-- A new tail is published: a submission begins at the old one (R404, R418, R426). -/
def State.publish (s : State) (q : Nat) (tail : Word) : State :=
  let x := s.queue q
  if tail = x.tail then s
  else
    let w := s.work q
    let s := s.setWork q { w with submissions := w.submissions ++ [x.tail.toNat] }
    ((s.setQueue q { x with tail := tail }).settle q).readAhead q

/-- Records are enqueued (R426). -/
def State.enqueue (s : State) (hw : Hw) (target count : Nat) (publish : Bool) (bytes : List Byte) : State :=
  let x := s.queue target
  let w := s.work target
  let s := s.putRecords hw target (x.tail.toNat + w.unpublished) (chunks 64 bytes)
  let total := w.unpublished + count
  if publish then
    (s.setWork target { s.work target with unpublished := 0 }).publish target (x.tail + BitVec.ofNat 32 total)
  else s.setWork target { s.work target with unpublished := total }

/-- What ENQUEUE checks (R408, R413, R426): its own record has left its ring. -/
def State.enqueueCheck (s : State) (x : Issue) (o : EnqueueOps) : Option QFault :=
  firstFault [s.headerCheck x.queue 0x06 x.header (noCells x.header) (isKernel o.target.toNat),
    failUnless (decide (o.target.toNat < 64)) (operandFault 8), failUnless (between 1 o.count.toNat 4096) (operandFault 10),
    s.cacheFault o.source.toNat (64 * o.count.toNat) 64,
    (s.take x.queue x.place).enqueueFault o.target.toNat o.count.toNat]

/-- ENQUEUE (R426). -/
def execEnqueue (x : Issue) (o : EnqueueOps) (s : State) : Host.Outcome State Fault Refusal :=
  .next (s.issue x 0x06 (fun r => readEnqueue r = o) (fun t _ => t.enqueueCheck x o)
    fun hw t =>
      let d := t.load hw (o.source.toNat % 2 ^ 44) (64 * o.count.toNat)
      match d.2 with
      | some bytes => .ok (d.1.enqueue hw o.target.toNat o.count.toNat (o.flags.getLsbD 0) bytes) .now
      | none => .stuck d.1)

/-- Wakes added to a proofer, saturating (R429). -/
def State.addWakes (s : State) (q n : Nat) : State :=
  let x := s.queue q
  s.setQueue q { x with wakes := BitVec.ofNat 32 (min (2 ^ 32 - 1) (x.wakes.toNat + n)) }

/-- The queue is a proofer (R427, R428). -/
def State.parked (s : State) (q : Nat) : Bool :=
  let x := s.queue q
  x.enable && (s.work q).proofer.isSome && x.state != .faulted && x.state != .resetting

/-- RING (R427). -/
def execRing (x : Issue) (o : RingOps) (s : State) : Host.Outcome State Fault Refusal :=
  .next (s.issue x 0x07 (fun r => readRing r = o)
    (fun t _ => firstFault [t.headerCheck x.queue 0x07 x.header (noCells x.header) (isKernel o.target.toNat),
      failUnless (decide (o.target.toNat < 64)) (operandFault 8), failUnless (decide (1 ≤ o.wakes.toNat)) (operandFault 10),
      failUnless (t.parked o.target.toNat) (ovenFault badTarget o.target.toNat)])
    fun _ t => .ok (t.addWakes o.target.toNat o.wakes.toNat) .now)

/-! ### Proofers -/

/-- What PARK checks (R408, R413, R428). -/
def State.parkCheck (s : State) (x : Issue) (o : ParkOps) : Option QFault :=
  firstFault [s.headerCheck x.queue 0x08 x.header (noCells x.header) (s.kernelRecipe o.recipe.toNat),
    failUnless (decide (o.recipe.toNat < 1024)) (operandFault 8), failUnless (decide (o.count.toNat ≤ 64)) (operandFault 10),
    failUnless (decide (o.slots.toNat ∈ [1, 2, 4, 8, 16, 32, 64, 128, 256])) (operandFault 12),
    s.cacheFault o.params.toNat (512 * o.slots.toNat) 512, s.recipeFault o.recipe.toNat o.count.toNat]

/-- PARK (R428): the queue becomes a proofer; the header's counter advances with each bake (R429). -/
def execPark (x : Issue) (o : ParkOps) (s : State) : Host.Outcome State Fault Refusal :=
  .next (s.issue x 0x08 (fun r => readPark r = o) (fun t _ => t.parkCheck x o)
    fun _ t =>
      let w := t.work x.queue
      let p : Proofer := ⟨o.recipe.toNat, o.count.toNat, o.slots.toNat, o.params.toNat, x.header, 0⟩
      .ok (((t.setWork x.queue { w with proofer := some p }).progress x.queue 1).countCompleted x.queue) .own)

/-- A wake is served (R429): the recipe is baked with the wake's parameter slot. -/
def State.serveWake (s : State) (q : QueueId) (p : Proofer) (hw : Hw) : State :=
  let x := s.queue q
  let position := (x.head.toNat + 2 ^ 32 - 1) % 2 ^ 32
  let s := (s.giveTurn q).setQueue q { x with wakes := x.wakes - 1 }
  let s := s.setWork q { s.work q with proofer := some { p with baked := p.baked + 1 } }
  let d := s.bakeWith hw q p.recipe p.count (p.params + 512 * (p.baked % p.slots)) position p.header true none
  match d.fault with
  | some f => d.state.faultQueue q 0x08 0xFFFF 0xFFFF position f
  | none => (d.state.settle q).yield

def execProoferWakeBake (queue : QueueId) (hw : Hw) (s : State) : Host.Outcome State Fault Refusal :=
  .next (match (s.work queue).proofer with
    | some p => if s.frontRuns && s.turn == some queue.val && s.wakeReady queue then s.serveWake queue p hw else s
    | none => s)

/-! ### QUEUE_CTL -/

/-- What a QUEUE_CTL checks (R408, R413, R414, R441). -/
def State.controlCheck (s : State) (x : Issue) (o : ControlOps) (action : Nat) : Option QFault :=
  firstFault [s.headerCheck x.queue 0x0B x.header (noCells x.header) false,
    if action = 1 ∨ action = 2 then
      (s.spanFault action o.target.toNat o.first.toNat o.count.toNat).map operandFault
    else failUnless (decide (o.target.toNat < 64)) (operandFault 8),
    failUnless (!((action == 3 || action == 5) && o.target.toNat == x.queue.val)) (operandFault 8)]

/-- A QUEUE_CTL record with its action (R408). -/
def State.control (s : State) (x : Issue) (o : ControlOps) (action : Nat) (run : State → State) : State :=
  s.issue x 0x0B (fun r => decide (readControl r = o ∧ recNat r 9 1 = action))
    (fun t _ => t.controlCheck x o action) fun _ t => .ok (run t) .now

/-- SET_LANE_WINDOW (R408, R414). -/
def execSetLaneWindow (x : Issue) (o : ControlOps) (s : State) : Host.Outcome State Fault Refusal :=
  .next (s.control x o 1 fun t => t.setQueue o.target.toNat { t.queue o.target.toNat with
    laneFirst := BitVec.ofNat 8 o.first.toNat, laneCount := BitVec.ofNat 9 o.count.toNat })

/-- SET_EVENT_RANGE (R408, R414). -/
def execSetEventRange (x : Issue) (o : ControlOps) (s : State) : Host.Outcome State Fault Refusal :=
  .next (s.control x o 2 fun t => t.setQueue o.target.toNat { t.queue o.target.toNat with
    eventBase := BitVec.ofNat 12 o.first.toNat, eventCount := BitVec.ofNat 13 o.count.toNat })

/-- STOP holds the queue out of the round-robin until START (R408; log entry 13). -/
def execStop (x : Issue) (o : ControlOps) (s : State) : Host.Outcome State Fault Refusal :=
  .next (s.control x o 3 fun t => t.setWork o.target.toNat { t.work o.target.toNat with held := true })

/-- A FAULTED queue returns to IDLE (R438). -/
def State.restartQueue (s : State) (q : Nat) : State :=
  let x := s.queue q
  if x.state = .faulted then (s.setQueue q { x with state := .idle }).settle q else s

/-- START (R408, R429, R438): releases a held queue, restarts a FAULTED one, wakes a proofer. -/
def execStart (x : Issue) (o : ControlOps) (s : State) : Host.Outcome State Fault Refusal :=
  .next (s.control x o 4 fun t =>
    let q := o.target.toNat
    let t := t.setWork q { t.work q with held := false }
    if (t.queue q).state = .faulted then t.restartQueue q
    else if t.parked q then t.addWakes q 1 else t)

/-- RESET (R408, R436, R440). -/
def execReset (x : Issue) (o : ControlOps) (s : State) : Host.Outcome State Fault Refusal :=
  .next (s.control x o 5 fun t =>
    t.faultQueue o.target.toNat 0xFF 0xFFFF 0xFFFF (t.queue o.target.toNat).head.toNat (ovenFault commanded x.queue))

/-- UNPARK (R430): pending wakes are discarded, a running bake completes. -/
def execUnpark (x : Issue) (o : ControlOps) (s : State) : Host.Outcome State Fault Refusal :=
  .next (s.control x o 6 fun t =>
    let q := o.target.toNat
    if (t.work q).proofer.isSome then
      let t := t.setWork q { t.work q with proofer := none }
      (t.setQueue q { t.queue q with wakes := 0 }).settle q
    else t)

end Sys2Proof.Machine
end

