-- ==== Sys2Proof/Machine/QueueRegs.lean ====
section
/-! DEFINITION. Machine/QueueRegs.lean: the registers of queues and event counters as the host and the cores write them
(R402 to R404, R417, R429, R438), and the Oven's time slice (R431). -/

namespace Sys2Proof.Machine

/-- The host reaches BAR0 (R99, R104, R542): the endpoint is open, the link up, and the device in a state that answers. -/
def State.barOpen (s : State) : Bool :=
  s.pcie.enabled && s.pcie.up && !s.pcie.d3hot && !s.power.clocksStopped &&
    (s.life.state == .starting || s.life.state == .ready || s.life.state == .inService || s.life.state == .halted)

/-- A path reaches the queue registers and event counters (R99, R450, R560). -/
def State.reaches (s : State) : AccessPath → Bool
  | .host => s.barOpen && s.life.state != .halted
  | .core _ => s.frontRuns

/-- A path reaches the serving registers (R99, R450, R542): the host not before stage 8 of a start. -/
def State.reachesServing (s : State) : AccessPath → Bool
  | .host => s.barOpen && (s.life.state != .starting || decide (8 ≤ s.life.stage))
  | .core _ => s.frontRuns

/-- A doorbell of a path is not ignored (R99, R542): the host's act in READY and IN_SERVICE. -/
def State.doorbellActs (s : State) : AccessPath → Bool
  | .host => s.barOpen && s.serving
  | .core _ => s.frontRuns

/-- The number of a path among those that latch a low dword (R417). -/
def pathNumber : AccessPath → Nat
  | .host => 0
  | .core n => 1 + n.val

/-- A DOORBELL write (R404, R429): a new tail, wakes for a proofer, or DOORBELL_ERR. -/
def State.ringDoorbell (s : State) (q : Nat) (v : Word) : State :=
  let x := s.queue q
  if s.parked q then s.addWakes q v.toNat
  else
    let claimed := (v - x.head).toNat
    if x.enable ∧ !x.producerEnqueue ∧ (x.tail - x.head).toNat ≤ claimed ∧ claimed ≤ x.ringSize then s.publish q v
    else s.setQueue q { x with doorbellErr := true }

def execDoorbell (path : AccessPath) (queue : QueueId) (value : Word) (s : State) : Host.Outcome State Fault Refusal :=
  .next (if s.doorbellActs path then s.ringDoorbell queue value else s)

/-- A write of the control register at offset 0 (R402, R403): PRODUCER and RING_HOST are taken while ENABLE is 0; setting
ENABLE starts the queue anew, clearing it stops the fetch. -/
def State.writeControl (s : State) (q : Nat) (v : Word) : State :=
  let x := s.queue q
  if x.enable then
    if v.getLsbD 0 then s
    else
      ((s.setQueue q { x with enable := false, state := if x.state = .faulted then .idle else x.state }).settle q).yield
  else
    let x := { x with producerEnqueue := v.getLsbD 1, ringHost := v.getLsbD 2 }
    if v.getLsbD 0 then
      let w := s.work q
      let s := s.setQueue q { x with enable := true, head := 0, tail := 0, wakes := 0, state := .idle }
      s.setWork q { QueueWork.blank with inFlight := w.inFlight, waits := w.waits, bakes := w.bakes, nextBake := w.nextBake }
    else s.setQueue q x

def execQueueEnable (path : AccessPath) (queue : QueueId) (value : Word) (s : State) :
    Host.Outcome State Fault Refusal :=
  .next (if s.reaches path then s.writeControl queue value else s)

/-- Writing 1 to RESTART restarts a FAULTED queue (R438). -/
def execRestart (path : AccessPath) (queue : QueueId) (value : Word) (s : State) : Host.Outcome State Fault Refusal :=
  .next (if s.reaches path ∧ value.getLsbD 0 then s.restartQueue queue else s)

/-- The key of a latched low dword; `set` is 1 for SET (R417). -/
def lowKey (c : Nat) (path : AccessPath) (set : Nat) : Nat := c * 32 + set * 16 + pathNumber path

/-- A write of ADVANCE or SET (R417): the low dword is latched for its path; the high dword acts with the low dword that
the path wrote last. The action, if there is one, is the 64-bit value. -/
def State.latchLow (s : State) (key : Nat) (low high : Option Word) : State × Option Nat :=
  let s := match low with
    | some v => { s with front := { s.front with lowDwords := s.front.lowDwords.set 0 key v } }
    | none => s
  (s, high.map fun h => (s.front.lowDwords.get 0 key).toNat + h.toNat * 2 ^ 32)

def execEventAdvanceRegister (path : AccessPath) (counter : Fin 4096) (low high : Option Word) (s : State) :
    Host.Outcome State Fault Refusal :=
  .next (if s.reaches path then
      let r := s.latchLow (lowKey counter path 0) low high
      match r.2 with
      | some v => r.1.advanceCounter counter v
      | none => r.1
    else s)

def execEventSetRegister (path : AccessPath) (counter : Fin 4096) (low high : Option Word) (s : State) :
    Host.Outcome State Fault Refusal :=
  .next (if s.reaches path then
      let r := s.latchLow (lowKey counter path 1) low high
      match r.2 with
      | some v => r.1.setEvent counter v
      | none => r.1
    else s)

/-- The slice of the queue that a unit serves ends (R431, R432): its next command is of the next runnable queue. -/
def execTimeSliceExpiry (unit : FrontEndUnit) (s : State) : Host.Outcome State Fault Refusal :=
  .next (if s.frontRuns then
      match unit with
      | .oven => { s with front := { s.front with sliceOver := true } }
      | .sequencer c => s.setSequencer c { s.sequencer c with sliceOver := true }
    else s)

end Sys2Proof.Machine
end

