-- ==== Sys2Proof/Machine/Deltas.lean ====
section
/-! DEFINITION. Machine/Deltas.lean: the stored form of a variant (08 R241 to R251), its building (R253 to R256, R275) and
its decoding with the checks of R261 and the record of R262. -/

namespace Sys2Proof.Machine

/-! ### Code tables -/

/-- The codeword length of symbol s in a 16 B code table (R249). -/
def tableLength (t : List Byte) (s : Nat) : Nat :=
  (t.getD (s / 2) 0).toNat / (if s % 2 = 0 then 1 else 16) % 16

def tableLengths (t : List Byte) : List Nat := (countFrom 0 32).map (tableLength t)

/-- Validity of a code table (R249). -/
def tableValid (ls : List Nat) : Bool :=
  ls.all (fun l => decide (l ≤ 12)) &&
  decide ((ls.map fun l => if l = 0 then 0 else 2 ^ (12 - l)).sum ≤ 4096)

/-- A codeword: length, code and symbol. -/
structure Codeword where
  len  : Nat
  code : Nat
  sym  : Nat
  deriving DecidableEq, Repr

/-- The symbols with a codeword, in order of length and then of symbol (R250). -/
def canonicalOrder (ls : List Nat) : List (Nat × Nat) :=
  (countFrom 1 15).flatMap fun l =>
    (countFrom 0 32).filterMap fun s => if ls.getD s 0 = l then some (l, s) else none

/-- Canonical assignment (R250). -/
def assignCodes : List (Nat × Nat) → Nat → Nat → List Codeword
  | [], _, _ => []
  | (l, s) :: t, code, prev =>
    let c := code * 2 ^ (l - prev)
    ⟨l, c, s⟩ :: assignCodes t (c + 1) l

def codewords (ls : List Nat) : List Codeword := assignCodes (canonicalOrder ls) 0 0

/-- The 16 bytes of a code table (R249). -/
def tableBytes (ls : List Nat) : List Byte :=
  (countFrom 0 16).map fun i => BitVec.ofNat 8 (ls.getD (2 * i) 0 + 16 * ls.getD (2 * i + 1) 0)

/-- A node of the table builder (R254): weight, key, and its leaves with their depths. -/
structure HuffNode where
  weight : Nat
  key    : Nat
  leaves : List (Nat × Nat)
  deriving DecidableEq, Repr

def HuffNode.before (a b : HuffNode) : Bool :=
  a.weight < b.weight || (a.weight == b.weight && a.key < b.key)

/-- A node put in its place in a list ordered by (weight, key). -/
def huffInsert (n : HuffNode) : List HuffNode → List HuffNode
  | [] => [n]
  | a :: t => if n.before a then n :: a :: t else a :: huffInsert n t

/-- Merging the two least nodes until one is left (R254). -/
def huffMerge : Nat → List HuffNode → List HuffNode
  | k + 1, a :: b :: t =>
    let leaves := (a.leaves ++ b.leaves).map fun p => (p.1, p.2 + 1)
    huffMerge k (huffInsert ⟨a.weight + b.weight, min a.key b.key, leaves⟩ t)
  | _, l => l

/-- The greatest j ≤ start with bl[j] ≠ 0 (R254's inner loop). -/
def lastUsed (bl : List Nat) : Nat → Nat
  | 0 => 0
  | j + 1 => if bl.getD (j + 1) 0 = 0 then lastUsed bl j else j + 1

/-- One limiting step at depth L (R254). -/
def limitStep (bl : List Nat) (l : Nat) : List Nat :=
  let j := lastUsed bl (l - 2)
  let bl := setAt bl l (bl.getD l 0 - 2)
  let bl := setAt bl (l - 1) (bl.getD (l - 1) 0 + 1)
  let bl := setAt bl (j + 1) (bl.getD (j + 1) 0 + 2)
  setAt bl j (bl.getD j 0 - 1)

/-- The steps at one depth, while leaves remain there. -/
def limitDepth (l : Nat) : Nat → List Nat → List Nat
  | 0, bl => bl
  | k + 1, bl => if bl.getD l 0 > 0 then limitDepth l k (limitStep bl l) else bl

/-- The depths from 12 + n down to 13. -/
def limitAll : Nat → List Nat → List Nat
  | 0, bl => bl
  | n + 1, bl => limitAll n (limitDepth (13 + n) 32 bl)

/-- A symbol put in its place among others ordered by descending count (R254); equal counts keep their order. -/
def insertByCount (h : List Nat) (s : Nat) : List Nat → List Nat
  | [] => [s]
  | a :: t => if h.getD a 0 ≥ h.getD s 0 then a :: insertByCount h s t else s :: a :: t

/-- Symbols by descending count and ascending symbol (R254). -/
def orderByCount (h : List Nat) (present : List Nat) : List Nat :=
  present.foldl (fun l s => insertByCount h s l) []

/-- The lengths that a list of leaf counts per depth hands out in order. -/
def handOut : List Nat → List (Nat × Nat)
  | bl => (countFrom 1 31).flatMap fun l => List.replicate (bl.getD l 0) (0, l)

/-- The code table of 32 counts (R254). -/
def buildTable (h : List Nat) : List Nat :=
  let present := (countFrom 0 32).filter fun s => h.getD s 0 > 0
  match present with
  | [] => List.replicate 32 0
  | [s] => setAt (List.replicate 32 0) s 1
  | _ =>
    let nodes := present.foldl (fun l s => huffInsert ⟨h.getD s 0, s, [(s, 0)]⟩ l) []
    match huffMerge 32 nodes with
    | [root] =>
      let bl := (countFrom 0 33).map fun d => (root.leaves.filter fun p => p.2 == d).length
      let bl := limitAll 19 bl
      let order := orderByCount h present
      (order.zip ((handOut bl).map Prod.snd)).foldl (fun ls p => setAt ls p.1 p.2) (List.replicate 32 0)
    | _ => List.replicate 32 0

/-! ### Coding -/

/-- The symbol of a variant code against its base code (R255): (v − b) mod 2^w read as a signed number of w bits, plus
15; 31 (ESC) outside −15 to 15. -/
def deltaSymbol (w b v : Nat) : Nat :=
  let d := (v + 2 ^ w - b) % 2 ^ w
  if d < 2 ^ (w - 1) then (if d ≤ 15 then d + 15 else 31)
  else (if 2 ^ w - d ≤ 15 then 15 - (2 ^ w - d) else 31)

/-- The low n bits of a number, most significant first. -/
def bitsMsb (v : Nat) : Nat → List Bool
  | 0 => []
  | n + 1 => v.testBit n :: bitsMsb v n

/-- The bits of one code of a block (R251, R255); none where the symbol has no codeword. -/
def codeBits (cw : List Codeword) (w b v : Nat) : Option (List Bool) :=
  let s := deltaSymbol w b v
  match cw.find? fun c => c.sym == s with
  | none => none
  | some c => some (bitsMsb c.code c.len ++ (if s = 31 then bitsMsb v w else []))

/-- Bytes of a bit string: bit j is bit (j mod 8) of byte j div 8 (R251). -/
def bitsToBytes (n : Nat) (l : List Bool) : List Byte :=
  (chunks 8 (padTo false (8 * n) l)).map fun c =>
    BitVec.ofNat 8 ((c.zipIdx.map fun p => if p.1 then 2 ^ p.2 else 0).sum)

/-- How a block is stored (R248). -/
inductive BlockMode where
  | zero
  | raw
  | coded
  deriving DecidableEq, Repr

def BlockMode.bits : BlockMode → Nat
  | .zero => 0
  | .raw => 1
  | .coded => 2

/-- The packed bytes of w-bit codes (R247, RAW). -/
def packCodes (w : Nat) (l : List Nat) : List Byte :=
  if w = 16 then l.flatMap fun c => toBytes 2 c
  else if w = 8 then l.map fun c => BitVec.ofNat 8 c
  else (chunks 2 l).map fun c => BitVec.ofNat 8 (c.getD 0 0 + 16 * c.getD 1 0)

/-- A block in its stored form (R247, R248, R255). -/
def packBlock (tag blockNo w : Nat) (ls : List Nat) (base var : List Nat) : BlockMode × List Byte :=
  if base = var then (.zero, []) else
  let cw := codewords ls
  let parts := (base.zip var).map fun p => codeBits cw w p.1 p.2
  let raw := packCodes w var
  if parts.all Option.isSome then
    let bs := parts.flatMap fun o => o.getD []
    let words := (bs.length + 127) / 128
    if 16 + 16 * words ≤ 256 * w && bs.length < 65536 then
      (.coded, toBytes 4 tag ++ toBytes 4 blockNo ++ toBytes 2 4096 ++ toBytes 2 bs.length ++ toBytes 1 w ++ toBytes 3 0
        ++ bitsToBytes (16 * words) bs)
    else (.raw, raw)
  else (.raw, raw)

/-- Counts of symbols added to a histogram of 32 (R253). -/
def countSymbols (h : List Nat) (w : Nat) (base var : List Nat) : List Nat :=
  if base = var then h else
  (base.zip var).foldl (fun h p => let s := deltaSymbol w p.1 p.2; setAt h s ((h.getD s 0 + 1) % 2 ^ 64)) h

/-! ### Decoding and its checks -/

/-- The causes of R261. -/
inductive DeltaCause where
  | format
  | table
  | mode
  | offset
  | header
  | count
  | length
  | codeword
  /-- no cause of R261: a stored block runs off the cell buffer (R229) -/
  | beyond
  deriving DecidableEq, Repr

def DeltaCause.code : DeltaCause → Nat
  | .format => 1
  | .table => 2
  | .mode => 3
  | .offset => 4
  | .header => 5
  | .count => 6
  | .length => 7
  | .codeword => 8
  | .beyond => 0

/-- A failed check: cause, entry position (63 for the whole window) and the block number of a failing header. -/
structure DeltaFault where
  cause : DeltaCause
  entry : Nat
  block : Option Nat
  tag   : Nat
  deriving DecidableEq, Repr

/-- The delta fault record (R262). -/
def DeltaFault.record (f : DeltaFault) : Nat :=
  f.tag % 2 ^ 32 + 2 ^ 32 * ((f.block.getD 0x3FFFFF) % 2 ^ 22) + 2 ^ 54 * (f.entry % 64) + 2 ^ 60 * f.cause.code

/-- One bit of a payload (R251). -/
def payloadBit (rd : Nat → Byte) (base j : Nat) : Bool := (rd (base + j / 8)).toNat.testBit (j % 8)

/-- A codeword matched from bit `pos` on, trying lengths from `len` up; none where no codeword of up to 12 bits fits. -/
def matchCodeword (cw : List Codeword) (bitAt : Nat → Bool) (pos : Nat) : Nat → Nat → Nat → Option Codeword
  | 0, _, _ => none
  | k + 1, len, acc =>
    let acc := 2 * acc + (bitAt (pos + len)).toNat
    match cw.find? fun c => c.len == len + 1 && c.code == acc with
    | some c => some c
    | none => matchCodeword cw bitAt pos k (len + 1) acc

/-- The number that w bits from `pos` on spell, most significant first. -/
def literalAt (bitAt : Nat → Bool) (pos : Nat) : Nat → Nat → Nat
  | 0, acc => acc
  | k + 1, acc => literalAt bitAt (pos + 1) k (2 * acc + (bitAt pos).toNat)

/-- The bits left of a payload are the start of a codeword that they cut off. -/
def cutCodeword (cw : List Codeword) (bitAt : Nat → Bool) (pos left : Nat) : Bool :=
  cw.any fun c => decide (left < c.len) && c.code / 2 ^ (c.len - left) == literalAt bitAt pos left 0

/-- n codes of a payload of `len` bits (R243, R251, R261), against the base codes. -/
def decodePayload (cw : List Codeword) (bitAt : Nat → Bool) (len w : Nat) :
    List Nat → Nat → Except DeltaCause (List Nat)
  | [], pos => if pos < len then .error .length else .ok []
  | b :: t, pos =>
    if len ≤ pos then .error .count else
    match matchCodeword cw bitAt pos 12 0 0 with
    | none => .error (if cutCodeword cw bitAt pos (len - pos) then .count else .codeword)
    | some c =>
      let p := pos + c.len
      let q := if c.sym = 31 then p + w else p
      if len < q then .error .count else
      let v := if c.sym = 31 then literalAt bitAt p w 0 else (b + 2 ^ w + c.sym - 15) % 2 ^ w
      match decodePayload cw bitAt len w t q with
      | .error e => .error e
      | .ok l => .ok (v :: l)

/-- A delta window in the cell buffer (R257): the descriptor's fields and the P index entries. -/
structure DeltaWindow where
  tag     : Nat
  format  : Nat
  variant : Nat
  elemTab : List Nat
  scaleTab : List Nat
  entries : List Nat
  deriving DecidableEq, Repr

/-- Bytes from a reading function. -/
def readBytes (rd : Nat → Byte) (a : Nat) (n : Nat) : List Byte := (countFrom a n).map rd

def readWindow (rd : Nat → Byte) (f : WFmt) (w : Nat) : DeltaWindow :=
  { tag := ofBytes (readBytes rd w 4), format := (rd (w + 4)).toNat, variant := (rd (w + 5)).toNat,
    elemTab := tableLengths (readBytes rd (w + 16) 16), scaleTab := tableLengths (readBytes rd (w + 32) 16),
    entries := (countFrom 0 f.blocks).map fun i => ofBytes (readBytes rd (w + 64 + 4 * i) 4) }

def entryMode (e : Nat) : Nat := e % 4
def entryOffset (e : Nat) : Nat := e / 16 * 16

/-- The code table of block i (R245). -/
def DeltaWindow.table (d : DeltaWindow) (f : WFmt) (i : Nat) : List Nat :=
  if f = .mxfp4 && i = 32 then d.scaleTab else d.elemTab

/-- The window's own checks (R261, R276): FORMAT and TABLE. -/
def windowCheck (d : DeltaWindow) (f : WFmt) (variant : Nat) : Option DeltaFault :=
  let coded i := entryMode (d.entries.getD i 0) == 2
  let bad (t : List Nat) := !tableValid t || t.all (· == 0)
  if d.format ≠ f.code || d.variant ≠ variant then some ⟨.format, 63, none, d.tag⟩
  else if (countFrom 0 f.blocks).any fun i => coded i && bad (d.table f i) then some ⟨.table, 63, none, d.tag⟩
  else none

/-- The offset of the next stored block after entry i, if one follows. -/
def nextStored (d : DeltaWindow) (i : Nat) : Option Nat :=
  match (d.entries.drop (i + 1)).find? fun e => entryMode e ≠ 0 with
  | some e => some (entryOffset e)
  | none => none

/-- A stored block lies within the cell buffer (R229). -/
def inBuffer (a n : Nat) : Bool := decide (a + n ≤ 6 * 2 ^ 20)

/-- Block i of a variant pass (R243, R257, R258, R261): its codes, or the first failed check; a block that runs off the cell buffer is
found where no check of its entry and header fails. `tBlk` is the tile number
that an earlier CODED header gave. -/
def expandBlock (rd : Nat → Byte) (f : WFmt) (w : Nat) (d : DeltaWindow) (baseCodes : Nat → List Nat) (i : Nat)
    (tBlk : Option Nat) : Except DeltaFault (List Nat × Option Nat) :=
  let e := d.entries.getD i 0
  let wd := f.blockWidth i
  let off := entryOffset e
  let at_ := w + 256 + off - entryOffset (d.entries.getD 0 0)
  let blk := ofBytes (readBytes rd (at_ + 4) 4)
  let header := if entryMode e = 2 then some blk else none
  let fail (c : DeltaCause) (b : Option Nat) : Except DeltaFault (List Nat × Option Nat) := .error ⟨c, i, b, d.tag⟩
  let past (size : Nat) := match nextStored d i with
    | some o => decide (o < off + size)
    | none => false
  if entryMode e = 3 then fail .mode none
  else if i > 0 && off < entryOffset (d.entries.getD (i - 1) 0) then fail .offset header
  else if entryMode e = 0 then .ok (baseCodes i, tBlk)
  else if entryMode e = 1 then
    if past (f.rawBytes i) then fail .offset none
    else if inBuffer at_ (f.rawBytes i) = false then fail .beyond none
    else .ok ((countFrom 0 4096).map (codeAt rd at_ wd), tBlk)
  else
    let cnt := ofBytes (readBytes rd (at_ + 8) 2)
    let len := ofBytes (readBytes rd (at_ + 10) 2)
    let size := 16 + 16 * ((len + 127) / 128)
    let tile := blk / f.blocks
    if past size then fail .offset header
    else if inBuffer at_ 16 = false then fail .beyond header
    else if ofBytes (readBytes rd at_ 4) ≠ d.tag || blk % f.blocks ≠ i || (tBlk.getD tile) ≠ tile
      || (rd (at_ + 12)).toNat ≠ wd then fail .header header
    else if cnt ≠ 4096 then fail .count header
    else if 256 * wd < size then fail .length header
    else if inBuffer at_ size = false then fail .beyond header
    else
      let bitAt := payloadBit rd (at_ + 16)
      match decodePayload (codewords (d.table f i)) bitAt len wd (baseCodes i) 0 with
      | .error c => fail c header
      | .ok l =>
        if (countFrom len (8 * (size - 16) - len)).any bitAt then fail .length header else .ok (l, some tile)

/-- Blocks i, i + 1, … of a tile. -/
def expandBlocks (rd : Nat → Byte) (f : WFmt) (w : Nat) (d : DeltaWindow) (baseCodes : Nat → List Nat) :
    Nat → Nat → Option Nat → Except DeltaFault (List (List Nat))
  | 0, _, _ => .ok []
  | n + 1, i, t =>
    match expandBlock rd f w d baseCodes i t with
    | .error e => .error e
    | .ok (l, t') =>
      match expandBlocks rd f w d baseCodes n (i + 1) t' with
      | .error e => .error e
      | .ok r => .ok (l :: r)

/-- The tile of a variant pass (R244, R258), block by block, or the delta fault. -/
def expandTile (rd : Nat → Byte) (f : WFmt) (tile w variant : Nat) : Except DeltaFault (List (List Nat)) :=
  let d := readWindow rd f w
  match windowCheck d f variant with
  | some e => .error e
  | none =>
    expandBlocks rd f w d (fun i => (countFrom 0 4096).map (plainCode rd f tile i)) f.blocks 0 none

/-- Bytes that block i costs the weight port beyond the base (R260): its stored size. -/
def storedBytes (rd : Nat → Byte) (f : WFmt) (w : Nat) (d : DeltaWindow) (i : Nat) : Nat :=
  let e := d.entries.getD i 0
  if entryMode e = 1 then f.rawBytes i
  else if entryMode e = 2 then
    16 + 16 * ((ofBytes (readBytes rd (w + 256 + (entryOffset e - entryOffset (d.entries.getD 0 0)) + 10) 2) + 127) / 128)
  else 0

end Sys2Proof.Machine
end

