-- ==== Sys2Proof/Machine/Kneader.lean ====
section
/-! DEFINITION. Machine/Kneader.lean: KNEAD and DRAIN (R38 to R43, R202 to R218, R235 to R237, R257 to R262). -/

namespace Sys2Proof.Machine

/-- The weight format of a code (R409). -/
def wfmtOf (b : Byte) : Option WFmt :=
  if b = 0 then some .bf16 else if b = 1 then some .fp8 else if b = 2 then some .mxfp4 else none

/-- The output format of a code (R409). -/
def outFmtOf (n : Nat) : Option OutFmt :=
  if n = 0 then some .f32 else if n = 1 then some .bf16 else if n = 2 then some .fp8 else none

/-- The input format that R38 pairs with a weight format. -/
def WFmt.inputCode : WFmt → Nat
  | .bf16 => 0
  | _ => 1

/-- The cell-buffer bytes of a cell as a reading function. -/
def State.bufReader (s : State) (c : Nat) : Nat → Byte := fun off => s.bufByte c off

/-! ### KNEAD -/

/-- What the Oven checks of a pass (R38, R202, R204 to R206, R210, R216, R235, R257, R409). -/
def State.kneadCheck (s : State) (x : Issue) (o : KneadOps) : Option QFault :=
  let f := (wfmtOf o.format).getD .bf16
  let span := f.span * f.inputBytes
  let first := o.firstLane.toNat
  let lanes := o.lanes.toNat
  let cols := o.columns.toNat
  let inStride := o.inStride.toNat
  let loadStride := o.loadStride.toNat
  firstFault [s.cellHeader x 0x20 false,
    failUnless (wfmtOf o.format).isSome (operandFault 8), failUnless (decide (o.mode.toNat ≤ 2)) (operandFault 9),
    failUnless (decide (o.inFormat.toNat = f.inputCode)) (operandFault 11),
    failUnless (decide (first ≤ 255)) (operandFault 12),
    failUnless (between 1 lanes 256 && decide (first + lanes ≤ 256)) (operandFault 14),
    failUnless (between 1 cols 512) (operandFault 16), s.laneFault x.queue first lanes,
    alignFault o.tile.toNat 128 20, if o.variant = 0 then none else alignFault o.window.toNat 128 24,
    alignFault o.inBase.toNat 16 28,
    failUnless (decide (inStride % 128 = 0) && decide (span ≤ inStride)) (operandFault 32),
    if o.mode = 1 then firstFault [alignFault o.loadBase.toNat 16 36,
      failUnless (decide (loadStride % 128 = 0)) (operandFault 40)] else none,
    bufFault o.tile.toNat f.tileBytes,
    if o.variant = 0 then none else bufFault o.window.toNat 256,
    rangeFault o.inBase.toNat inStride lanes span,
    if o.mode = 1 then rangeFault o.loadBase.toNat loadStride lanes (4 * cols) else none]

/-- The blocks of the base that a fill reads (R258, R259): every one of a plain tile, and those that a ZERO or CODED
block of a variant needs. -/
def baseBlocks (f : WFmt) (d : Option DeltaWindow) : List Nat :=
  (countFrom 0 f.blocks).filter fun i => match d with
    | none => true
    | some d => entryMode (d.entries.getD i 0) != 1

/-- The base latch of a cell, when it holds blocks of the tile that a pass names (R259). -/
def State.latched (s : State) (c tile : Nat) (f : WFmt) : List Nat :=
  match s.cells.latch.get none c with
  | some l => if l.base = tile ∧ l.fmt = f then l.blocks else []
  | none => []

/-- A fill of the shadow registers (R207, R259, R260): the state with the latch and the counters of R270 brought up, and F.
The window, where there is one, has passed its checks. -/
def State.fill (s : State) (c : Nat) (f : WFmt) (tile : Nat) (window : Option (Nat × Nat)) : State × Nat :=
  let d := window.map fun w => readWindow (s.bufReader c) f w.1
  let need := baseBlocks f d
  let have_ := s.latched c tile f
  let hits := (need.filter fun i => decide (i ∈ have_)).length
  let read := need.filter fun i => decide (i ∉ have_)
  let s := s.bump (0x4000 + c) 0x43 0 hits
  let s := { s with cells := { s.cells with
      latch := if read = [] then s.cells.latch else s.cells.latch.set none c (some ⟨tile, f, have_ ++ read⟩)
      tile := s.cells.tile.set none c (some ⟨tile, window, f⟩) } }
  match d, window with
  | some d, some w =>
    let mode (m : Nat) : Nat := ((countFrom 0 f.blocks).filter fun i => entryMode (d.entries.getD i 0) == m).length
    let stored := ((countFrom 0 f.blocks).map fun i => storedBytes (s.bufReader c) f w.1 d i).sum
    let b := 256 + stored + (read.map f.rawBytes).sum
    let s := ((s.bump (0x4000 + c) 0x40 0 (mode 0)).bump (0x4000 + c) 0x40 1 (mode 1)).bump (0x4000 + c) 0x40 2 (mode 2)
    (s, max 16 ((b + 8191) / 8192))
  | _, _ => (s, f.plainFill)

/-- The codes of the tile that a pass delivers to the Kneader (R244, R258), or its delta fault. -/
def State.passCodes (s : State) (c : Nat) (f : WFmt) (o : KneadOps) : Except DeltaFault (Nat → Nat → Nat) :=
  if o.variant = 0 then .ok fun i j => plainCode (s.bufReader c) f o.tile.toNat i j
  else
    match expandTile (s.bufReader c) f o.tile.toNat o.window.toNat o.variant.toNat with
    | .error e => .error e
    | .ok l => .ok fun i j => (l.getD i []).getD j 0

/-- The initial accumulator value of a lane and column (R216); the columns beyond Nc of LOAD are free (log entry 10). -/
def State.passStart (s : State) (draw c : Nat) (o : KneadOps) (j col : Nat) : F32 :=
  if o.mode = 0 then 0
  else if o.mode = 1 then
    if col < o.columns.toNat then
      BitVec.ofNat 32 (s.bufNat c (o.loadBase.toNat + j * o.loadStride.toNat + 4 * col) 4)
    else Config.freeF32 draw ((c * 256 + j) * 512 + col)
  else s.accWord c (o.firstLane.toNat + j) col

/-- The grid's work on one lane (R41, R205): columns 0 to Nc − 1 hold weights, the others zeros. -/
def State.passLane (s : State) (draw c : Nat) (f : WFmt) (o : KneadOps) (code : Nat → Nat → Nat) (j : Nat) :
    State × ArithFlags :=
  let base := o.inBase.toNat + j * o.inStride.toNat
  let xs := (countFrom 0 f.span).map fun k => f.input (s.bufReader c) base k
  let out := (countFrom 0 512).map fun col =>
    let ws := (countFrom 0 f.span).map fun k => f.weight code k col
    passElement xs ws (s.passStart draw c o j col) (o.mode == 1 && decide (col < o.columns.toNat))
  (s.setAccRow c (o.firstLane.toNat + j) 0 (out.map Prod.fst), out.foldl (fun g v => g.join v.2) {})

/-- Every lane of a pass. -/
def State.passLanes (s : State) (draw c : Nat) (f : WFmt) (o : KneadOps) (code : Nat → Nat → Nat) :
    List Nat → State × ArithFlags
  | [] => (s, {})
  | j :: t =>
    let a := s.passLane draw c f o code j
    let b := a.1.passLanes draw c f o code t
    (b.1, a.2.join b.2)

/-- One pass in one cell (R206, R207, R237). -/
def State.kneadCell (s : State) (q : Nat) (o : KneadOps) (c : Nat) : CellDone :=
  let f := (wfmtOf o.format).getD .bf16
  let lanes := o.lanes.toNat
  let window := if o.variant = 0 then none else some (o.window.toNat, o.variant.toNat)
  match s.passCodes c f o with
  | .error e =>
    let s := s.freeLanes c o.firstLane.toNat lanes
    .bad { s with cells := { s.cells with tile := s.cells.tile.set none c none } }
      (if e.cause = .beyond then ovenFault badAddress 0 o.window.toNat else ovenFault badDelta e.record o.window.toNat) c
  | .ok code =>
    let loaded := s.cells.tile.get none c == some ⟨o.tile.toNat, window, f⟩
    let r := if loaded then (s, 0) else s.fill c f o.tile.toNat window
    let d := if o.mode = 1 then r.1.draw else (0, r.1)
    let p := d.2.passLanes d.1 c f o code (countFrom 0 lanes)
    let t := (p.1.bump (0x4000 + c) 0x10 0 1).bump (0x4000 + c) 0x11 0 (max (lanes * f.cyclesPerLane) r.2)
    .ok (t.progress q 1) p.2

/-- KNEAD (R206). -/
def execKnead (x : Issue) (o : KneadOps) (s : State) : Host.Outcome State Fault Refusal :=
  .next (s.issue x 0x20 (fun r => readKnead r = o) (fun t _ => t.kneadCheck x o)
    fun hw t => t.cellWork hw x fun c u => u.kneadCell x.queue o c)

/-! ### DRAIN -/

/-- What the Oven checks of a drain (R210, R218, R235, R409). -/
def State.drainCheck (s : State) (x : Issue) (o : DrainOps) : Option QFault :=
  let f := (outFmtOf o.format.toNat).getD .f32
  let first := o.firstLane.toNat
  let lanes := o.lanes.toNat
  let cols := o.columns.toNat
  let stride := o.outStride.toNat
  firstFault [s.cellHeader x 0x21 false, failUnless (outFmtOf o.format.toNat).isSome (operandFault 8),
    failUnless (decide (first ≤ 255)) (operandFault 12),
    failUnless (between 1 lanes 256 && decide (first + lanes ≤ 256)) (operandFault 14),
    failUnless (between 1 cols 512) (operandFault 16), s.laneFault x.queue first lanes,
    alignFault o.outBase.toNat 16 20,
    failUnless (decide (stride % 128 = 0) && decide (cols * f.bytes ≤ stride)) (operandFault 24),
    rangeFault o.outBase.toNat stride lanes (cols * f.bytes)]

/-- One lane of a drain, converted (R48, R218). -/
def State.drainLane (s : State) (c : Nat) (f : OutFmt) (o : DrainOps) (j : Nat) : State × ArithFlags :=
  let out := (countFrom 0 o.columns.toNat).map fun col => f.convert (s.accWord c (o.firstLane.toNat + j) col)
  (s.bufWrite c (o.outBase.toNat + j * o.outStride.toNat) (out.flatMap Prod.fst),
    out.foldl (fun g v => g.join v.2) {})

/-- Every lane of a drain. -/
def State.drainLanes (s : State) (c : Nat) (f : OutFmt) (o : DrainOps) : List Nat → State × ArithFlags
  | [] => (s, {})
  | j :: t =>
    let a := s.drainLane c f o j
    let b := a.1.drainLanes c f o t
    (b.1, a.2.join b.2)

/-- A drain in its cell. -/
def State.drainCell (s : State) (q : Nat) (o : DrainOps) (c : Nat) : CellDone :=
  let r := s.drainLanes c ((outFmtOf o.format.toNat).getD .f32) o (countFrom 0 o.lanes.toNat)
  .ok (r.1.progress q 1) r.2

/-- DRAIN leaves the accumulator file as it is (R218). -/
def execDrain (x : Issue) (o : DrainOps) (s : State) : Host.Outcome State Fault Refusal :=
  .next (s.issue x 0x21 (fun r => readDrain r = o) (fun t _ => t.drainCheck x o)
    fun hw t => t.cellWork hw x fun c u => u.drainCell x.queue o c)

end Sys2Proof.Machine
end

