-- ==== Sys2Proof/Machine/Sieve.lean ====
section
/-! DEFINITION. Machine/Sieve.lean: SIEVE, ROPE and STAT (R51 to R53, R219 to R222, R289 to R292, R305, R410, R470). -/

namespace Sys2Proof.Machine

/-- A code is NaN. -/
def isNan (w : F32) : Bool := (f32Value w).isNan

/-- Bytes of an element of a format code (R410). -/
def fmtBytes (f : Nat) : Nat := if f = 0 then 4 else if f = 1 then 2 else 1

/-- An element's bytes as FP32 (R50). -/
def widen (f : Nat) (v : Nat) : F32 :=
  if f = 0 then BitVec.ofNat 32 v else if f = 1 then bf16ToF32 (BitVec.ofNat 16 v) else roundF32 (fp8Value (BitVec.ofNat 8 v))

/-- n elements of a cell buffer. -/
def State.elements (s : State) (c f base n : Nat) : List F32 :=
  (countFrom 0 n).map fun i => widen f (s.bufNat c (base + fmtBytes f * i) (fmtBytes f))

/-- n words of a lane from a column on (R221). -/
def State.laneWords (s : State) (c lane col n : Nat) : List F32 := (countFrom 0 n).map fun i => s.accWord c lane (col + i)

/-- Input and output format codes (R410). -/
def SieveOps.inFmt (o : SieveOps) : Nat := bits o.formats.toNat 0 4
def SieveOps.outFmt (o : SieveOps) : Nat := bits o.formats.toNat 4 4

/-- B is the immediate (R409). -/
def SieveOps.immB (o : SieveOps) : Bool := o.flags.getLsbD 0

/-- Bytes of the A, B, C and D vectors of a sub-operation, 0 where it uses none. -/
structure SieveSpans where
  code : Nat
  a : Nat
  b : Nat
  c : Nat
  d : Nat
  /-- accumulator columns that A takes -/
  cols : Nat
  /-- the sub-operation takes the immediate in place of B -/
  imm : Bool
  /-- D is one run of elements, not a vector for each v (reductions) -/
  packedD : Bool

/-- The first accumulator lane that A names (R410; for STAT_UPDATE, log entry 35). -/
def SieveOps.lane (o : SieveOps) (code : Nat) : Nat := if code = 0x15 then o.first.toNat / 16 else o.first.toNat

/-- What the Oven checks of a SIEVE record (R210, R219, R229, R409, R410). -/
def State.sieveCheck (s : State) (x : Issue) (o : SieveOps) (p : SieveSpans) : Option QFault :=
  let n := o.n.toNat
  let v := o.vectors.toNat
  let st := o.stride.toNat
  let acc := o.aSource == 1
  let lane := SieveOps.lane o p.code
  firstFault [s.cellHeader x 0x22 false, failUnless (decide (o.aSource.toNat ≤ 1)) (operandFault 9),
    failUnless (decide (SieveOps.inFmt o ≤ 2) && decide (SieveOps.outFmt o ≤ 2)) (operandFault 10),
    failUnless (between 1 n 262144) (operandFault 12), failUnless (between 1 v 256) (operandFault 16),
    if acc then failUnless (decide (o.a.toNat + p.cols ≤ 512)) (operandFault 20) else alignFault o.a.toNat 16 20,
    if p.b = 0 then none else alignFault o.b.toNat 16 24, if p.c = 0 then none else alignFault o.c.toNat 16 28,
    alignFault o.d.toNat 16 32, alignFault st 16 36,
    if p.code = 0x07 then failUnless (decide (o.immU.toNat ≤ 3)) (operandFault 44) else none,
    if p.code = 0x16 then failUnless (between 1 o.immU.toNat 1024) (operandFault 44) else none,
    if acc then failUnless (decide (lane + v ≤ 256)) (operandFault 48) else none,
    if p.code = 0x15 then failUnless (decide (o.first.toNat + v ≤ 4096)) (operandFault 48) else none,
    if acc then s.laneFault x.queue lane v else none,
    if p.code = 0x15 then s.rowFault x.queue o.first.toNat v else none,
    if acc then none else rangeFault o.a.toNat st v p.a,
    if p.b = 0 then none else rangeFault o.b.toNat st v p.b,
    if p.c = 0 then none else rangeFault o.c.toNat st v p.c,
    if p.packedD then bufFault o.d.toNat (p.d * v) else rangeFault o.d.toNat st v p.d]

/-- Vector v of A (R410). -/
def State.sieveA (s : State) (o : SieveOps) (c code v n : Nat) : List F32 :=
  if o.aSource = 1 then s.laneWords c (SieveOps.lane o code + v) o.a.toNat n
  else s.elements c (SieveOps.inFmt o) (o.a.toNat + v * o.stride.toNat) n

/-- A Sieve command done in a cell: counted, and PROGRESS advanced (R234, R433). -/
def State.sieveDone (s : State) (q c : Nat) (f : ArithFlags) : CellDone := .ok ((s.bump (0x4000 + c) 0x12 0 1).progress q 1) f

/-- Vectors in order. -/
def State.vectors (work : State → Nat → State × ArithFlags) : List Nat → State → State × ArithFlags
  | [], s => (s, {})
  | v :: t, s =>
    let a := work s v
    let b := State.vectors work t a.1
    (b.1, a.2.join b.2)

/-- Results written in the output format (R48, R410). -/
def State.putResults (s : State) (o : SieveOps) (c off : Nat) (l : List F32) : State × ArithFlags :=
  let f := (outFmtOf (SieveOps.outFmt o)).getD .f32
  let out := l.map f.convert
  (s.bufWrite c off (out.flatMap Prod.fst), out.foldl (fun g v => g.join v.2) {})

/-- 1.0 of FP32. -/
def f32One : F32 := 0x3F800000

/-- The predicate of CMP (R410); of a NaN only NE holds (R52). -/
def cmpHolds (k : Nat) (a b : F32) : Bool :=
  let x := f32Value a
  let y := f32Value b
  if k = 0 then x.numEq y else if k = 1 then x.lt y else if k = 2 then x.lt y || x.numEq y
  else !(x.numEq y)

/-- The result of an elementwise sub-operation on elements of A, B and C (R51, R52, R410). -/
def elementOp (o : SieveOps) (code : Nat) (a b c : F32) : F32 × ArithFlags :=
  if code = 0x01 then f32Add a b
  else if code = 0x02 then f32Sub a b
  else if code = 0x03 then f32Mul a b
  else if code = 0x04 then f32Fma a b c
  else if code = 0x05 then f32Max a b
  else if code = 0x06 then f32Min a b
  else if code = 0x07 then (if cmpHolds o.immU.toNat a b then f32One else 0, {})
  else if code = 0x08 then (if (f32Value c).isZero then b else a, {})
  else if code = 0x0A then f32Exp2 a
  else if code = 0x0B then f32Exp a
  else if code = 0x0C then f32Rcp a
  else if code = 0x0D then f32Log2 a
  else if code = 0x0E then f32Ln a
  else if code = 0x0F then f32Rsqrt a
  else if code = 0x13 then f32Mul a b
  else (a, {})

/-- The elementwise sub-operations that use B, and C (R410). -/
def usesB (code : Nat) : Bool := decide (code ≤ 0x08) || code == 0x13
def usesC (code : Nat) : Bool := code == 0x04 || code == 0x08

/-- The spans of an elementwise operation. -/
def elementSpans (o : SieveOps) (code : Nat) : SieveSpans :=
  let n := o.n.toNat
  let w := fmtBytes (SieveOps.inFmt o)
  { code := code, a := n * w, b := if usesB code && !SieveOps.immB o then n * w else 0
    c := if usesC code then n * w else 0, d := n * fmtBytes (SieveOps.outFmt o), cols := n
    imm := usesB code && SieveOps.immB o, packedD := false }

/-- Vector v of B of an elementwise operation (R409, R410). -/
def State.sieveB (s : State) (o : SieveOps) (p : SieveSpans) (c v : Nat) : List F32 :=
  if p.b = 0 then List.replicate o.n.toNat (if p.imm then o.immF else 0)
  else s.elements c (SieveOps.inFmt o) (o.b.toNat + v * o.stride.toNat) o.n.toNat

/-- Vector v of C of an elementwise operation (R410). -/
def State.sieveC (s : State) (o : SieveOps) (p : SieveSpans) (c v : Nat) : List F32 :=
  if p.c = 0 then List.replicate o.n.toNat 0
  else s.elements c (SieveOps.inFmt o) (o.c.toNat + v * o.stride.toNat) o.n.toNat

/-- One vector of an elementwise operation (R222): operands, results, flags of R55. -/
def State.mapVector (s : State) (o : SieveOps) (code c : Nat) (v : Nat) : State × ArithFlags :=
  let p := elementSpans o code
  let as := s.sieveA o c code v o.n.toNat
  let bs := s.sieveB o p c v
  let cs := s.sieveC o p c v
  let out := (as.zip (bs.zip cs)).map fun e => elementOp o code e.1 e.2.1 e.2.2
  let flags : ArithFlags := out.foldl (fun g e => g.join e.2) {}
  let r := s.putResults o c (o.d.toNat + v * o.stride.toNat) (out.map Prod.fst)
  (r.1, (flags.join r.2).withNan (as.any isNan || bs.any isNan || cs.any isNan))

/-! ### Reductions -/

/-- The operation of a reduction (R53, R410). -/
def reduceOp (code : Nat) (a b : F32) : F32 × ArithFlags :=
  if code = 0x10 then f32Add a b else if code = 0x11 then f32Max a b else f32Min a b

/-- The spans of a reduction. -/
def reduceSpans (o : SieveOps) (code : Nat) : SieveSpans :=
  ⟨code, o.n.toNat * fmtBytes (SieveOps.inFmt o), 0, 0, 4, o.n.toNat, false, true⟩

/-- One vector reduced to one FP32 at D + 4·v (R53, R410). -/
def State.reduceVector (s : State) (o : SieveOps) (code c : Nat) (v : Nat) : State × ArithFlags :=
  let r := treeReduce (reduceOp code) (s.sieveA o c code v o.n.toNat)
  (s.bufWrite c (o.d.toNat + 4 * v) (toBytes 4 r.1.toNat), r.2)

/-! ### STAT_UPDATE -/

/-- The block arithmetic of R305 on scores already scaled, with −∞ in the slots that are not visible: m, s and the BF16
probabilities. A slot that is not visible (`live` false) contributes +0 also where the maximum is −∞ (R314, R316, log
entry 140). -/
def blockStats (live : Nat → Bool) (xs : List F32) : F32 × F32 × List Bf16 × ArithFlags :=
  let m := treeReduce f32Max xs
  let p := (xs.zip (countFrom 0 xs.length)).map fun (x, t) =>
    if !live t && m.1 == f32Inf true then ((0 : Bf16), ({} : ArithFlags))
    else if (f32Value x).numEq (f32Value m.1) then ((0x3F80 : Bf16), ({} : ArithFlags))
    else
      let d := f32Sub x m.1
      let e := f32Exp d.1
      let b := f32ToBf16 e.1
      (b.1, (d.2.join e.2).join b.2)
  let s := treeReduce f32Add (p.map fun v => bf16ToF32 v.1)
  (m.1, s.1, p.map Prod.fst, (p.foldl (fun g v => g.join v.2) (m.2.join s.2)))

/-- Scores multiplied by the scale (R305). -/
def scaleScores (l : List F32) (scale : F32) : List F32 × ArithFlags :=
  let r := l.map fun v => f32Mul v scale
  (r.map Prod.fst, r.foldl (fun g v => g.join v.2) {})

/-- One vector of STAT_UPDATE (R219, R305): a row at (−∞, +0) takes the block's statistics; for a row that holds others
the spec states the running maximum alone, and the sum and the exponentiated scores are free; the flags are those of the same
update of a row at (−∞, +0) (DESIGN CHOICE, log entry 37). -/
def State.statVector (s : State) (o : SieveOps) (c : Nat) (v : Nat) : State × ArithFlags :=
  let n := o.n.toNat
  let raw := s.sieveA o c 0x15 v n
  let xs := scaleScores raw o.immF
  let b := blockStats (fun _ => true) xs.1
  let row := o.first.toNat + v
  let old := s.statRow c row
  let nan := isNan o.immF || raw.any isNan
  let flags := (xs.2.join b.2.2.2).withNan nan
  let off := o.d.toNat + v * o.stride.toNat
  if old = StatRow.blank then
    ((s.setStat c row ⟨b.1, b.2.1⟩).bufWrite c off (b.2.2.1.flatMap fun p => toBytes 2 p.toNat), flags)
  else
    let d := s.draw
    let m := (f32Max old.max b.1).1
    let p := (countFrom 0 n).map fun i => (Config.freeF32 d.1 (i + 1)).toNat % 2 ^ 16
    ((d.2.setStat c row ⟨m, Config.freeF32 d.1 0⟩).bufWrite c off (p.flatMap fun b => toBytes 2 b), flags)

/-! ### TOPK_SCAN and PHILOX -/

/-- A candidate goes before another: by value descending, then by index (R469). -/
def candBefore (a b : F32 × Nat) : Bool :=
  (f32Value b.1).lt (f32Value a.1) || (!(f32Value a.1).lt (f32Value b.1) && decide (a.2 ≤ b.2))

/-- A candidate put into its place of an ordered list. -/
def insertCand (a : F32 × Nat) : List (F32 × Nat) → List (F32 × Nat)
  | [] => [a]
  | b :: t => if candBefore a b then a :: b :: t else b :: insertCand a t

/-- The k first candidates, in order, NaN left out, missing ones (−∞, 0xFFFF_FFFF) (R469, R470). -/
def topk (l : List (F32 × Nat)) (k : Nat) : List (F32 × Nat) :=
  padTo (f32Inf true, 0xFFFFFFFF) k ((l.filter fun v => !isNan v.1).foldr insertCand [])

/-- The 8 B entries of a scan (R470). -/
def topkBytes (l : List (F32 × Nat)) : List Byte := l.flatMap fun v => toBytes 4 v.1.toNat ++ toBytes 4 v.2

/-- One vector of TOPK_SCAN (R469, R470). -/
def State.topkVector (s : State) (o : SieveOps) (c : Nat) (v : Nat) : State × ArithFlags :=
  let n := o.n.toNat
  let a := s.sieveA o c 0x16 v n
  (s.bufWrite c (o.d.toNat + v * o.stride.toNat) (topkBytes (topk (a.zip (countFrom 0 n)) o.immU.toNat)),
    ({} : ArithFlags).withNan (a.any isNan))

/-- One vector of PHILOX (R470): counters at A, keys at B. -/
def State.philoxVector (s : State) (o : SieveOps) (c : Nat) (v : Nat) : State × ArithFlags :=
  let n := o.n.toNat
  let st := v * o.stride.toNat
  let counters : List Word := if o.aSource = 1 then s.laneWords c (o.first.toNat + v) o.a.toNat (4 * n)
    else (countFrom 0 (4 * n)).map fun i => BitVec.ofNat 32 (s.bufNat c (o.a.toNat + st + 4 * i) 4)
  let key (i : Nat) : Word := BitVec.ofNat 32 (s.bufNat c (o.b.toNat + st + 4 * i) 4)
  let out := (countFrom 0 n).flatMap fun i => philox ((counters.drop (4 * i)).take 4) (key (2 * i), key (2 * i + 1))
  (s.bufWrite c (o.d.toNat + st) (out.flatMap fun w => toBytes 4 w.toNat), {})

/-! ### The SIEVE commands -/

/-- The spans of a sub-operation (R410). -/
def sieveSpans (o : SieveOps) (code : Nat) : SieveSpans :=
  let n := o.n.toNat
  let w := fmtBytes (SieveOps.inFmt o)
  if code = 0x10 ∨ code = 0x11 ∨ code = 0x12 then reduceSpans o code
  else if code = 0x15 then ⟨code, n * w, 0, 0, 2 * n, n, false, false⟩
  else if code = 0x16 then ⟨code, n * w, 0, 0, 8 * o.immU.toNat, n, false, false⟩
  else if code = 0x17 then ⟨code, 16 * n, 8 * n, 0, 16 * n, 4 * n, false, false⟩
  else elementSpans o code

/-- One vector of a sub-operation (R410). -/
def State.sieveVector (o : SieveOps) (code c : Nat) (s : State) (v : Nat) : State × ArithFlags :=
  if code = 0x10 ∨ code = 0x11 ∨ code = 0x12 then s.reduceVector o code c v
  else if code = 0x15 then s.statVector o c v
  else if code = 0x16 then s.topkVector o c v
  else if code = 0x17 then s.philoxVector o c v
  else s.mapVector o code c v

/-- A SIEVE command in its cell, vector by vector. -/
def State.sieveCell (s : State) (q : Nat) (o : SieveOps) (code c : Nat) : CellDone :=
  let r := State.vectors (State.sieveVector o code c) (countFrom 0 o.vectors.toNat) s
  r.1.sieveDone q c r.2

/-- A SIEVE command of a sub-operation: its record, its checks, and its work in each cell. -/
def State.sieve (s : State) (x : Issue) (o : SieveOps) (code : Nat) : State :=
  s.issue x 0x22 (fun r => decide (readSieve r = o) && decide (recNat r 8 1 = code))
    (fun t _ => t.sieveCheck x o (sieveSpans o code))
    fun hw t => t.cellWork hw x fun c u => u.sieveCell x.queue o code c

/-- ADD (R51). -/
def execSieveAdd (x : Issue) (o : SieveOps) (s : State) : Host.Outcome State Fault Refusal := .next (s.sieve x o 0x01)
/-- SUB (R51). -/
def execSieveSub (x : Issue) (o : SieveOps) (s : State) : Host.Outcome State Fault Refusal := .next (s.sieve x o 0x02)
/-- MUL (R51). -/
def execSieveMul (x : Issue) (o : SieveOps) (s : State) : Host.Outcome State Fault Refusal := .next (s.sieve x o 0x03)
/-- FMA rounds once (R51). -/
def execSieveFma (x : Issue) (o : SieveOps) (s : State) : Host.Outcome State Fault Refusal := .next (s.sieve x o 0x04)
/-- MAX (R52). -/
def execSieveMax (x : Issue) (o : SieveOps) (s : State) : Host.Outcome State Fault Refusal := .next (s.sieve x o 0x05)
/-- MIN (R52). -/
def execSieveMin (x : Issue) (o : SieveOps) (s : State) : Host.Outcome State Fault Refusal := .next (s.sieve x o 0x06)
/-- CMP (R410). -/
def execCmp (x : Issue) (o : SieveOps) (s : State) : Host.Outcome State Fault Refusal := .next (s.sieve x o 0x07)
/-- SEL (R410). -/
def execSel (x : Issue) (o : SieveOps) (s : State) : Host.Outcome State Fault Refusal := .next (s.sieve x o 0x08)
/-- CVT (R48, R50). -/
def execCvt (x : Issue) (o : SieveOps) (s : State) : Host.Outcome State Fault Refusal := .next (s.sieve x o 0x09)
/-- EXP2 (R51). -/
def execExp2 (x : Issue) (o : SieveOps) (s : State) : Host.Outcome State Fault Refusal := .next (s.sieve x o 0x0A)
/-- EXP (R51). -/
def execExp (x : Issue) (o : SieveOps) (s : State) : Host.Outcome State Fault Refusal := .next (s.sieve x o 0x0B)
/-- RCP (R51). -/
def execRcp (x : Issue) (o : SieveOps) (s : State) : Host.Outcome State Fault Refusal := .next (s.sieve x o 0x0C)
/-- LOG2 (R51). -/
def execLog2 (x : Issue) (o : SieveOps) (s : State) : Host.Outcome State Fault Refusal := .next (s.sieve x o 0x0D)
/-- LN (R51). -/
def execLn (x : Issue) (o : SieveOps) (s : State) : Host.Outcome State Fault Refusal := .next (s.sieve x o 0x0E)
/-- RSQRT (R51). -/
def execRsqrt (x : Issue) (o : SieveOps) (s : State) : Host.Outcome State Fault Refusal := .next (s.sieve x o 0x0F)
/-- SUM (R53). -/
def execSum (x : Issue) (o : SieveOps) (s : State) : Host.Outcome State Fault Refusal := .next (s.sieve x o 0x10)
/-- RMAX (R53). -/
def execRmax (x : Issue) (o : SieveOps) (s : State) : Host.Outcome State Fault Refusal := .next (s.sieve x o 0x11)
/-- RMIN (R53). -/
def execRmin (x : Issue) (o : SieveOps) (s : State) : Host.Outcome State Fault Refusal := .next (s.sieve x o 0x12)
/-- SCALE_COL: vector v of A by the scales at B + v · stride (R219, R410). -/
def execScaleCol (x : Issue) (o : SieveOps) (s : State) : Host.Outcome State Fault Refusal := .next (s.sieve x o 0x13)
/-- STAT_UPDATE (R219, R305). -/
def execStatUpdate (x : Issue) (o : SieveOps) (s : State) : Host.Outcome State Fault Refusal := .next (s.sieve x o 0x15)
/-- TOPK_SCAN (R469, R470). -/
def execTopkScan (x : Issue) (o : SieveOps) (s : State) : Host.Outcome State Fault Refusal := .next (s.sieve x o 0x16)
/-- PHILOX (R470). -/
def execPhilox (x : Issue) (o : SieveOps) (s : State) : Host.Outcome State Fault Refusal := .next (s.sieve x o 0x17)

/-! ### ROPE -/

/-- What the Oven checks of ROPE (R210, R229, R289, R290, R409). -/
def State.ropeCheck (s : State) (x : Issue) (o : RopeOps) : Option QFault :=
  let acc := o.source == 1
  let d := o.d.toNat
  let r := o.r.toNat
  let hd := o.heads.toNat * d
  let v := o.vectors.toNat
  firstFault [s.cellHeader x 0x23 false, failUnless (decide (o.pairing.toNat ≤ 1)) (operandFault 8),
    failUnless (decide (o.source.toNat ≤ 1)) (operandFault 9), failUnless (decide (1 ≤ o.heads.toNat)) (operandFault 10),
    failUnless (d == 128 || d == 256) (operandFault 12),
    failUnless (between 2 r d && decide (r % 2 = 0)) (operandFault 14),
    if acc then failUnless (decide (o.firstLane.toNat + v ≤ 256)) (operandFault 16) else none,
    failUnless (between 1 v 256) (operandFault 18), alignFault o.table.toNat 128 20, alignFault o.positions.toNat 16 24,
    if acc then failUnless (decide (o.inBase.toNat + hd ≤ 512)) (operandFault 28) else alignFault o.inBase.toNat 16 28,
    if acc then none else alignFault o.inStride.toNat 16 32,
    alignFault o.outBase.toNat 16 36, alignFault o.outStride.toNat 16 40,
    if acc then s.laneFault x.queue o.firstLane.toNat v else none,
    bufFault o.table.toNat (2048 * r), bufFault o.positions.toNat (4 * v),
    if acc then none else rangeFault o.inBase.toNat o.inStride.toNat v (4 * hd),
    rangeFault o.outBase.toNat o.outStride.toNat v (2 * hd)]

/-- Negation of an FP32 code. -/
def f32Neg (w : F32) : F32 := w ^^^ 0x80000000

/-- u·v − x·y, or u·v + x·y, as R291 rounds it: fma(u, v, ∓round(x·y)). -/
def rotTerm (u v x y : F32) (minus : Bool) : F32 × ArithFlags :=
  let p := f32Mul x y
  let r := f32Fma u v (if minus then f32Neg p.1 else p.1)
  (r.1, p.2.join r.2)

/-- The cosine and sine of pair i at position p, from the two tables (R290, R291), with whether a NaN was read. -/
def State.ropeAngle (s : State) (c : Nat) (o : RopeOps) (p i : Nat) : F32 × F32 × ArithFlags × Bool :=
  let at_ (base k : Nat) : F32 × F32 :=
    (BitVec.ofNat 32 (s.bufNat c (base + 8 * (256 * i + k)) 4), BitVec.ofNat 32 (s.bufNat c (base + 8 * (256 * i + k) + 4) 4))
  let a := at_ o.table.toNat (p / 256)
  let b := at_ (o.table.toNat + 1024 * o.r.toNat) (p % 256)
  let co := rotTerm a.1 b.1 a.2 b.2 true
  let si := rotTerm a.2 b.1 a.1 b.2 false
  (co.1, si.1, co.2.join si.2, isNan a.1 || isNan a.2 || isNan b.1 || isNan b.2)

/-- The places in a head of the two elements of pair i (R289). -/
def ropePair (o : RopeOps) (i : Nat) : Nat × Nat := if o.pairing = 0 then (i, i + o.r.toNat / 2) else (2 * i, 2 * i + 1)

/-- One head rotated (R291). -/
def ropeHead (o : RopeOps) (angles : List (F32 × F32)) (x : List F32) : List F32 × ArithFlags :=
  (angles.zip (countFrom 0 angles.length)).foldl (fun (r : List F32 × ArithFlags) a =>
    let j := ropePair o a.2
    let x0 := x.getD j.1 0
    let x1 := x.getD j.2 0
    let y0 := rotTerm x0 a.1.1 x1 a.1.2 true
    let y1 := rotTerm x0 a.1.2 x1 a.1.1 false
    (setAt (setAt r.1 j.1 y0.1) j.2 y1.1, (r.2.join y0.2).join y1.2)) (x, {})

/-- One vector of ROPE, at its position (R289 to R291); the elements of a cell buffer are FP32 (log entry 38). -/
def State.ropeVector (o : RopeOps) (c : Nat) (s : State) (v : Nat) : State × ArithFlags :=
  let d := o.d.toNat
  let n := o.heads.toNat * d
  let p := s.bufNat c (o.positions.toNat + 4 * v) 4
  let xs := if o.source = 1 then s.laneWords c (o.firstLane.toNat + v) o.inBase.toNat n
    else s.elements c 0 (o.inBase.toNat + v * o.inStride.toNat) n
  let angles := (countFrom 0 (o.r.toNat / 2)).map (s.ropeAngle c o p)
  let heads := (chunks d xs).map (ropeHead o (angles.map fun a => (a.1, a.2.1)))
  let out := (heads.flatMap Prod.fst).map f32ToBf16
  let f : ArithFlags := angles.foldl (fun g e => g.join e.2.2.1) {}
  let flags := out.foldl (fun g e => g.join e.2) (heads.foldl (fun g e => g.join e.2) f)
  (s.bufWrite c (o.outBase.toNat + v * o.outStride.toNat) (out.flatMap fun e => toBytes 2 e.1.toNat),
    flags.withNan (xs.any isNan || angles.any fun a => a.2.2.2))

/-- The first position of the vectors that is none (R289), by vector number. -/
def State.badPosition (s : State) (c : Nat) (o : RopeOps) : Option Nat :=
  (countFrom 0 o.vectors.toNat).find? fun v => decide (65535 < s.bufNat c (o.positions.toNat + 4 * v) 4)

/-- ROPE in its cell; a position that is none is a fault (R289). -/
def State.ropeCell (s : State) (q : Nat) (o : RopeOps) (c : Nat) : CellDone :=
  match s.badPosition c o with
  | some v => .bad s { operandFault 24 with addr := o.positions.toNat + 4 * v } c
  | none =>
    let r := State.vectors (State.ropeVector o c) (countFrom 0 o.vectors.toNat) s
    r.1.sieveDone q c r.2

/-- ROPE (R289 to R292). -/
def execRope (x : Issue) (o : RopeOps) (s : State) : Host.Outcome State Fault Refusal :=
  .next (s.issue x 0x23 (fun r => readRope r = o) (fun t _ => t.ropeCheck x o)
    fun hw t => t.cellWork hw x fun c u => u.ropeCell x.queue o c)

/-! ### STAT -/

/-- What the Oven checks of STAT (R210, R220, R229); `buffer` says that the action uses the cell buffer. -/
def State.statCheck (s : State) (x : Issue) (o : StatOps) (buffer : Bool) : Option QFault :=
  let first := o.firstRow.toNat
  let n := o.rows.toNat
  firstFault [s.cellHeader x 0x24 false, failUnless (decide (first ≤ 4095)) (operandFault 12),
    failUnless (between 1 n (4096 - first)) (operandFault 14), if buffer then alignFault o.offset.toNat 16 16 else none,
    s.rowFault x.queue first n, if buffer then bufFault o.offset.toNat (8 * n) else none]

/-- One row of a STAT command (R220; log entry 39): INIT sets it to (−∞, +0), READ copies it to the buffer, maximum then sum,
8 B a row, WRITE copies it from the buffer. The words are copied as they are (log entry 136). -/
def State.statRowWork (o : StatOps) (action c : Nat) (s : State) (i : Nat) : State :=
  let row := o.firstRow.toNat + i
  let off := o.offset.toNat + 8 * i
  if action = 0 then s.setStat c row StatRow.blank
  else if action = 1 then
    let r := s.statRow c row
    s.bufWrite c off (toBytes 4 r.max.toNat ++ toBytes 4 r.sum.toNat)
  else s.setStat c row ⟨BitVec.ofNat 32 (s.bufNat c off 4), BitVec.ofNat 32 (s.bufNat c (off + 4) 4)⟩

/-- A STAT command in its cell, row by row. -/
def State.statCell (s : State) (q : Nat) (o : StatOps) (action c : Nat) : CellDone :=
  ((countFrom 0 o.rows.toNat).foldl (State.statRowWork o action c) s).sieveDone q c {}

/-- A STAT record with its action (R409). -/
def State.stat (s : State) (x : Issue) (o : StatOps) (action : Nat) : State :=
  s.issue x 0x24 (fun r => decide (readStat r = o) && decide (recNat r 8 1 = action))
    (fun t _ => t.statCheck x o (action != 0))
    fun hw t => t.cellWork hw x fun c u => u.statCell x.queue o action c

/-- INIT (R220). -/
def execStatInit (x : Issue) (o : StatOps) (s : State) : Host.Outcome State Fault Refusal := .next (s.stat x o 0)
/-- READ (R220). -/
def execStatRead (x : Issue) (o : StatOps) (s : State) : Host.Outcome State Fault Refusal := .next (s.stat x o 1)
/-- WRITE (R220). -/
def execStatWrite (x : Issue) (o : StatOps) (s : State) : Host.Outcome State Fault Refusal := .next (s.stat x o 2)

end Sys2Proof.Machine
end

