-- ==== Sys2Proof/Machine/Sampler.lean ====
section
/-! DEFINITION. Machine/Sampler.lean: the sampler of R469 to R471, and the settings it takes (R461). -/

namespace Sys2Proof.Machine

/-- a ≤ b on FP32 codes that are no NaN. -/
def f32Le (a b : F32) : Bool := !(f32Value b).lt (f32Value a)

/-- A code that is positive and finite. -/
def positiveFinite (w : F32) : Bool := (f32Value w).isFinite && !(f32Value w).isZero && !(f32Value w).sign

/-- The sampler settings lie in the ranges of R461. -/
def settingsOk (temperature topP penalty : F32) (topK : Nat) : Bool :=
  (temperature == 0 || positiveFinite temperature) && (positiveFinite topP && f32Le topP f32One) &&
    (positiveFinite penalty && f32Le f32One penalty) && decide (topK ≤ 1024)

/-- A logit that sets NONFINITE (R469). -/
def nonFinite (w : F32) : Bool := !(f32Value w).isFinite

/-- The repetition penalty on one candidate (R469 step 2). -/
def penalize (penalty : F32) (tokens : List Nat) (x : F32 × Nat) : F32 × Nat :=
  if tokens.contains x.2 then
    (if (f32Value 0).lt (f32Value x.1) then (f32Mul x.1 (f32Rcp penalty).1).1 else (f32Mul x.1 penalty).1, x.2)
  else x

/-- Sums c_0 to c_(k−1) of the probabilities (R469 step 6). -/
def runningSums (c : F32) : List F32 → List F32
  | [] => []
  | p :: t => let c := (f32Add c p).1; c :: runningSums c t

/-- The drawn fraction (R469 step 8): the word's top 24 bits over 2^24, exactly. -/
def drawFraction (seed : DWord) (q : Nat) : F32 :=
  let w := (philox [BitVec.ofNat 32 q, 0, 0, 0] (seed.extractLsb' 0 32, seed.extractLsb' 32 32)).headD 0
  roundF32 (.fin false (w.toNat / 256) (-24))

/-- Steps 6 to 8 of R469: the candidate's place, from the probabilities. -/
def drawPlace (probabilities : List F32) (topP u : F32) : Nat :=
  let c := match probabilities with
    | [] => []
    | p :: t => p :: runningSums p t
  let limit := (f32Mul topP (c.getLastD 0)).1
  let cut := 1 + (c.findIdx? fun x => f32Le limit x).getD (c.length - 1)
  let t := (f32Mul u (c.getD (cut - 1) 0)).1
  ((c.take cut).findIdx? fun x => (f32Value t).lt (f32Value x)).getD (cut - 1)

/-- What the sampler makes of logits: no token (NUMERIC), or one (R469). `free` picks the token where the temperature is so
small that the greatest scaled logit is −∞ or NaN, for which the spec states no probabilities (log entry 42). -/
def sampleToken (logits : List F32) (q : Nat) (seed : DWord) (temperature topP penalty : F32) (topK : Nat)
    (tokens : List Nat) (free : Nat) : Option Nat :=
  let k := if topK = 0 then 1024 else topK
  let cand := ((topk (logits.zip (countFrom 0 logits.length)) k).map (penalize penalty tokens)).foldr insertCand []
  match cand with
  | [] => none
  | c0 :: _ =>
    if c0.1 = f32Inf true then none
    else if temperature = 0 ∨ c0.1 = f32Inf false then some c0.2
    else
      let r := (f32Rcp temperature).1
      let z := cand.map fun x => (f32Mul x.1 r).1
      let m := z.headD 0
      if m = f32Inf false then some c0.2
      else if nonFinite m then
        some ((cand.filter fun x => x.2 != 0xFFFFFFFF).getD (free % (cand.filter fun x => x.2 != 0xFFFFFFFF).length) c0).2
      else
        let p := f32One :: z.tail.map fun x => (f32Exp (f32Sub x m).1).1
        some (cand.getD (drawPlace p topP (drawFraction seed q)) c0).2

/-- The novelty of R467. -/
def noveltyOf (lse : List Bf16) : F32 :=
  let n := (f32Rcp (roundF32 (.fin false lse.length 0))).1
  (f32Mul (treeReduce f32Add (lse.map bf16ToF32)).1 n).1

end Sys2Proof.Machine
end

