-- ==== Sys2Proof/Machine/Atomics.lean ====
section
/-! DEFINITION. Machine/Atomics.lean: the atomic operations and the lse-merge (R178 to R200), and the ATOMIC command. -/

namespace Sys2Proof.Machine

/-! ### Operations 0x01 to 0x0D -/

/-- The bytes of an operation's operand (R178). -/
def atomicWidth (code : Nat) : Nat := if code = 2 ∨ code = 5 ∨ code = 8 ∨ code = 11 ∨ code = 13 then 8 else 4

/-- A number of w bits read as two's complement. -/
def signedOf (w v : Nat) : Int := (BitVec.ofNat w v).toInt

/-- The new value of an operation (R178, R179), with the flags of its FP32 arithmetic. -/
def atomicNew (code old v compare : Nat) : Nat × ArithFlags :=
  let w := 8 * atomicWidth code
  let fl (r : F32 × ArithFlags) : Nat × ArithFlags := (r.1.toNat, r.2)
  let a : F32 := BitVec.ofNat 32 old
  let b : F32 := BitVec.ofNat 32 v
  if code = 1 ∨ code = 2 then ((old + v) % 2 ^ w, {})
  else if code = 3 then fl (f32Add a b)
  else if code = 4 ∨ code = 5 then (if signedOf w v < signedOf w old then v else old, {})
  else if code = 6 then fl (f32Min a b)
  else if code = 7 ∨ code = 8 then (if signedOf w old < signedOf w v then v else old, {})
  else if code = 9 then fl (f32Max a b)
  else if code = 10 ∨ code = 11 then (v, {})
  else (if old = compare then v else old, {})

/-- An operand of an operation cut to its width. -/
def cutOperand (code v : Nat) : Nat := v % 2 ^ (8 * atomicWidth code)

/-- An atomic performed by the slice of a cacheable local address (R179, R181): the old value, unless an uncorrectable
error withholds the line, and the flags. -/
def State.atomicAt (s : State) (hw : Hw) (code a v compare : Nat) : State × Option Nat × ArithFlags :=
  let r := s.touchLine hw (a / 128) true none
  if r.2 then
    let w := atomicWidth code
    let old := r.1.memNat a w
    let n := atomicNew code old (cutOperand code v) (cutOperand code compare)
    ((r.1.memWrite a (toBytes w n.1)).bump 0x3400 0x30 (sliceOf a) 1, some old, n.2)
  else (r.1, none, {})

/-! ### The lse-merge record -/

/-- An lse-merge record (R184). -/
structure LseRec where
  m : F32
  s : F32
  n : Nat
  p : Nat
  next : Nat
  final : Bool
  done : Bool
  err : Bool
  spill : Nat
  counter : Nat
  lse : F32
  arrived : Nat
  o : List F32
  deriving DecidableEq, Repr

/-- Bytes of a record (R178). -/
def lseBytes : Nat := 1280

/-- The FP32 code at an offset of bytes. -/
def f32At (l : List Byte) (a : Nat) : F32 := BitVec.ofNat 32 (imageNat l a 4)

/-- A record as its bytes give it (R184). -/
def readLse (l : List Byte) : LseRec :=
  let fl := imageNat l 14 2
  { m := f32At l 0, s := f32At l 4, n := imageNat l 8 2, p := imageNat l 10 2, next := imageNat l 12 2
    final := bit fl 0, done := bit fl 1, err := bit fl 2, spill := imageNat l 16 8, counter := bits (imageNat l 24 2) 0 12
    lse := f32At l 32, arrived := imageNat l 128 128
    o := (countFrom 0 (min 256 (imageNat l 8 2))).map fun j => f32At l (256 + 4 * j) }

/-- A record laid over its bytes (R184); reserved bytes and unused elements keep what they hold (R11). -/
def LseRec.write (x : LseRec) (l : List Byte) : List Byte :=
  let fl := imageNat l 14 2 / 8 * 8 + x.final.toNat + 2 * x.done.toNat + 4 * x.err.toNat
  let c := imageNat l 24 2 / 4096 * 4096 + x.counter % 4096
  toBytes 4 x.m.toNat ++ toBytes 4 x.s.toNat ++ toBytes 2 x.n ++ toBytes 2 x.p ++ toBytes 2 x.next ++ toBytes 2 fl ++
    toBytes 8 x.spill ++ toBytes 2 c ++ (l.drop 26).take 6 ++ toBytes 4 x.lse.toNat ++ (l.drop 36).take 92 ++
    toBytes 128 x.arrived ++ (x.o.flatMap fun v => toBytes 4 v.toNat) ++ l.drop (256 + 4 * x.o.length)

/-- A partial (R186). -/
structure Partial where
  m : F32
  s : F32
  o : List F32
  deriving DecidableEq, Repr

/-- −∞ and +0 of FP32. -/
def negInf : F32 := 0xFF800000

/-- A weight of the fold (R188). -/
def foldWeight (m m2 : F32) : F32 × ArithFlags :=
  if m = negInf then (0, {})
  else
    let d := f32Sub m m2
    let e := f32Exp d.1
    (e.1, d.2.join e.2)

/-- x · b + y · a as the fold rounds it: fma(x, b, round(y · a)) (R188). -/
def foldTerm (x b y a : F32) : F32 × ArithFlags :=
  let p := f32Mul y a
  let r := f32Fma x b p.1
  (r.1, p.2.join r.2)

/-- The fold of a partial into a record (R188); the single partial of a record with P = 1 is taken with weight 1 whatever its
maximum (R198, R314, log entry 140). NAN_IN is the partial's: what the record holds was counted where it arose
(R55). -/
def LseRec.fold (x : LseRec) (p : Partial) : LseRec × ArithFlags :=
  let m2 := f32Max x.m p.m
  let single := x.p == 1 && x.m == negInf && !(f32Value p.m).isNan
  let a : F32 × ArithFlags := if m2.1 = negInf then (0, {}) else foldWeight x.m m2.1
  let b : F32 × ArithFlags :=
    if single then (0x3F800000, {}) else if m2.1 = negInf then (0, {}) else foldWeight p.m m2.1
  let s := foldTerm p.s b.1 x.s a.1
  let o := (x.o.zip (padTo 0 x.o.length p.o)).map fun v => foldTerm v.2 b.1 v.1 a.1
  let nan := (p.m :: p.s :: p.o).any fun v => (f32Value v).isNan
  ({ x with m := m2.1, s := s.1, o := o.map Prod.fst },
    (o.foldl (fun f v => f.join v.2) (((m2.2.join a.2).join b.2).join s.2)).withNan nan)

/-- The completion of a record with FINAL (R189). -/
def LseRec.finalize (x : LseRec) : LseRec × ArithFlags :=
  if x.s = 0 then
    ({ x with o := x.o.map fun v => if (f32Value v).isNan then v else 0
              lse := if (f32Value x.m).isNan then f32Nan else negInf }, {})
  else
    let r := f32Rcp x.s
    let o := x.o.map fun v => f32Mul v r.1
    let l := f32Ln x.s
    let e := f32Add x.m l.1
    ({ x with o := o.map Prod.fst, lse := e.1 }, (o.foldl (fun f v => f.join v.2) ((r.2.join l.2).join e.2)).withNan false)

/-- The address of spill slot k (R186). -/
def LseRec.slot (x : LseRec) (k : Nat) : Nat := x.spill + k * 1152

/-- The record a cacheable local address holds, with its bytes. -/
def State.lseAt (s : State) (a : Nat) : LseRec × List Byte :=
  let l := s.memRead a lseBytes
  (readLse l, l)

/-- LSE_INIT (R185): false when an uncorrectable error withholds a line of the record. -/
def State.lseInit (s : State) (hw : Hw) (a n p : Nat) (final : Bool) (spill counter : Nat) : State × Bool :=
  let r := s.access hw a lseBytes true
  if r.2 then
    let x : LseRec := ⟨negInf, 0, n, p, 0, final, false, false, spill, counter, 0, 0, List.replicate n 0⟩
    (r.1.memWrite a (x.write (r.1.memRead a lseBytes)), true)
  else (r.1, false)

/-- The partial that a spill slot holds (R186). -/
def readPartial (l : List Byte) (n : Nat) : Partial :=
  ⟨f32At l 0, f32At l 4, (countFrom 0 n).map fun j => f32At l (128 + 4 * j)⟩

/-- The bytes that a partial takes in its spill slot: m, s and k, and o from byte 128 (R186). -/
def Partial.head (p : Partial) (k : Nat) : List Byte := toBytes 4 p.m.toNat ++ toBytes 4 p.s.toNat ++ toBytes 2 k

/-- How an LSE_MERGE went. -/
inductive Merged where
  | done
  | stuck
  | refused (f : QFault)

/-- Parked partials folded from the next ordinal on (R187): the record, the flags, and whether a line was withheld. -/
def State.foldParked (hw : Hw) : Nat → State → LseRec → ArithFlags → State × LseRec × ArithFlags × Bool
  | 0, s, x, f => (s, x, f, true)
  | fuel + 1, s, x, f =>
    if x.next < x.p ∧ x.arrived.testBit x.next then
      match s.cacheableAt (x.slot x.next) 1152 with
      | none => (s, x, f, false)
      | some b =>
        let r := s.access hw b 1152 false
        if r.2 then
          let y := x.fold (readPartial (r.1.memRead b 1152) x.n)
          State.foldParked hw fuel r.1 { y.1 with next := x.next + 1 } (f.join y.2)
        else (r.1, x, f, false)
    else (s, x, f, true)

/-- A partial folded, what was parked behind it, and the record's completion (R187 to R189). -/
def State.lseFold (s : State) (hw : Hw) (a : Nat) (x : LseRec) (l : List Byte) (p : Partial) :
    State × Merged × ArithFlags :=
  let y := x.fold p
  let r := s.foldParked hw x.p { y.1 with next := x.next + 1 } y.2
  let s := r.1
  let z := r.2.1
  if r.2.2.2 = false then (s.memWrite a (z.write l), .stuck, r.2.2.1)
  else if z.next = z.p then
    let v : LseRec × ArithFlags := if z.final then z.finalize else (z, {})
    let s := s.memWrite a ({ v.1 with done := true }.write l)
    ((s.advanceCounter z.counter 1).bump 0x3400 0x40 (sliceOf a) 1, .done, r.2.2.1.join v.2)
  else (s.memWrite a (z.write l), .done, r.2.2.1)

/-- LSE_MERGE of partial k with n elements into the record at a local address (R187, R197). -/
def State.lseMerge (s : State) (hw : Hw) (a k n : Nat) (p : Partial) : State × Merged × ArithFlags :=
  let r := s.access hw a lseBytes true
  if r.2 = false then (r.1, .stuck, {})
  else
    let s := r.1
    let x := s.lseAt a
    match s.cacheableAt (x.1.slot k) 1152 with
    | none => (s, .refused (ovenFault badCaching 0 (x.1.slot k)), {})
    | some b =>
      if x.1.done || x.1.err || decide (x.1.p ≤ k) || decide (k < x.1.next) || x.1.arrived.testBit k ||
          decide (x.1.n ≠ n) then
        (s.memWrite a ({ x.1 with err := true }.write x.2), .refused (ovenFault badMerge k (s.global a)), {})
      else if x.1.next < k then
        let t := s.access hw b 1152 true
        if t.2 then
          let u := (t.1.memWrite b (p.head k)).memWrite (b + 128) (p.o.flatMap fun v => toBytes 4 v.toNat)
          ((u.memWrite a ({ x.1 with arrived := x.1.arrived + 2 ^ k }.write x.2)).bump 0x3400 0x41 (sliceOf a) 1, .done, {})
        else (t.1, .stuck, {})
      else s.lseFold hw a x.1 x.2 p

/-! ### The ATOMIC command -/

/-- The ATOMIC record of a code (R409). -/
def spellsAtomic (o : AtomicOps) (code : Nat) (r : List Byte) : Bool :=
  decide (readAtomic r = o) && decide (recNat r 8 1 = code)

/-- FETCH and FINAL (R409). -/
def AtomicOps.fetch (o : AtomicOps) : Bool := o.flags.getLsbD 0
def AtomicOps.final (o : AtomicOps) : Bool := o.flags.getLsbD 1

/-- A cell-buffer operand of n bytes at an offset: a multiple of 16, within the buffer (R229, R409). -/
def bufOperand (off n field : Nat) : Option QFault := firstFault [alignFault off 16 field, bufFault off n]

/-- What the Oven checks of an operation of codes 0x01 to 0x0D (R180, R409). -/
def State.atomicCheck (s : State) (x : Issue) (o : AtomicOps) (code : Nat) : Option QFault :=
  let w := atomicWidth code
  let g := o.addr.toNat
  firstFault [s.cellHeader x 0x11 true,
    if AtomicOps.fetch o then bufOperand o.result.toNat w 12 else none,
    failUnless (decide (g % w = 0)) (ovenFault badCaching 0 g),
    match s.target g w with
    | .away _ _ => none
    | .here a => failUnless (s.allCacheable a w) (ovenFault badCaching 0 g)
    | .nowhere => some (ovenFault badCaching 0 g)]

/-- An operation of codes 0x01 to 0x0D, here or on another device (R179, R182, R505, R506). -/
def State.runAtomic (s : State) (x : Issue) (o : AtomicOps) (code : Nat) (hw : Hw) (c : CellId) : CellDone :=
  let w := atomicWidth code
  match s.target o.addr.toNat w with
  | .here a =>
    let r := s.atomicAt hw code a o.value.toNat o.compare.toNat
    match r.2.1 with
    | some old => .ok (if AtomicOps.fetch o then r.1.bufWrite c o.result.toNat (toBytes w old) else r.1) r.2.2
    | none => ⟨r.1, {}, none, 1, []⟩
  | .away port a =>
    let waiter : Waiter := .atomic x.queue x.place c (if AtomicOps.fetch o then some o.result.toNat else none) code
      o.value.toNat o.compare.toNat
    let bytes := requestHeader 3 0 (AtomicOps.fetch o).toNat code a ++ toBytes 8 o.value.toNat ++ toBytes 8 o.compare.toNat
    let r := s.request port bytes 3 w waiter
    ⟨r.1, {}, none, r.2.toNat, []⟩
  | .nowhere => .bad s (ovenFault badCaching 0 o.addr.toNat) c

/-- An operation on another device has been performed (R179, R507): the old value goes to the cell buffer, and FP32 arithmetic
raises the queue's flags; of a posted one they are those of a free old value, which no response names (log entry 139). -/
def State.atomicDone (s : State) (q : QueueId) (place : Place) (c : CellId) (dest : Option Nat) (code v compare old : Nat) :
    State :=
  let w := atomicWidth code
  match dest with
  | some off => (s.bufWrite c off (toBytes w old)).noteFlags q place c (atomicNew code (old % 2 ^ (8 * w)) v compare).2
  | none =>
    if code = 3 ∨ code = 6 ∨ code = 9 then
      let d := s.draw
      d.2.noteFlags q place c (atomicNew code (Config.freeF32 d.1 0).toNat v compare).2
    else s

/-- An ATOMIC command of codes 0x01 to 0x0D. -/
def State.atomic (s : State) (x : Issue) (o : AtomicOps) (code : Nat) : State :=
  s.issue x 0x11 (spellsAtomic o code) (fun t _ => t.atomicCheck x o code)
    fun hw t => t.cellWork hw x fun _ u => u.runAtomic x o code hw (theCell x.header.mask)

/-- ADD.I32 (R178). -/
def execAddI32 (x : Issue) (o : AtomicOps) (s : State) : Host.Outcome State Fault Refusal := .next (s.atomic x o 0x01)
/-- ADD.I64 (R178). -/
def execAddI64 (x : Issue) (o : AtomicOps) (s : State) : Host.Outcome State Fault Refusal := .next (s.atomic x o 0x02)
/-- ADD.F32 (R178, R179). -/
def execAddF32 (x : Issue) (o : AtomicOps) (s : State) : Host.Outcome State Fault Refusal := .next (s.atomic x o 0x03)
/-- MIN.I32 (R178). -/
def execMinI32 (x : Issue) (o : AtomicOps) (s : State) : Host.Outcome State Fault Refusal := .next (s.atomic x o 0x04)
/-- MIN.I64 (R178). -/
def execMinI64 (x : Issue) (o : AtomicOps) (s : State) : Host.Outcome State Fault Refusal := .next (s.atomic x o 0x05)
/-- MIN.F32 (R178, R179). -/
def execMinF32 (x : Issue) (o : AtomicOps) (s : State) : Host.Outcome State Fault Refusal := .next (s.atomic x o 0x06)
/-- MAX.I32 (R178). -/
def execMaxI32 (x : Issue) (o : AtomicOps) (s : State) : Host.Outcome State Fault Refusal := .next (s.atomic x o 0x07)
/-- MAX.I64 (R178). -/
def execMaxI64 (x : Issue) (o : AtomicOps) (s : State) : Host.Outcome State Fault Refusal := .next (s.atomic x o 0x08)
/-- MAX.F32 (R178, R179). -/
def execMaxF32 (x : Issue) (o : AtomicOps) (s : State) : Host.Outcome State Fault Refusal := .next (s.atomic x o 0x09)
/-- SWAP.32 (R178). -/
def execSwap32 (x : Issue) (o : AtomicOps) (s : State) : Host.Outcome State Fault Refusal := .next (s.atomic x o 0x0A)
/-- SWAP.64 (R178). -/
def execSwap64 (x : Issue) (o : AtomicOps) (s : State) : Host.Outcome State Fault Refusal := .next (s.atomic x o 0x0B)
/-- CAS.32 (R178, R196). -/
def execCas32 (x : Issue) (o : AtomicOps) (s : State) : Host.Outcome State Fault Refusal := .next (s.atomic x o 0x0C)
/-- CAS.64 (R178, R196). -/
def execCas64 (x : Issue) (o : AtomicOps) (s : State) : Host.Outcome State Fault Refusal := .next (s.atomic x o 0x0D)

/-- A record's address lies in cacheable memory of this device, at the start of a 2 KiB block (R180, R182, R184). -/
def State.recordFault (s : State) (g : Nat) : Option QFault :=
  failUnless (decide (g % 2048 = 0) && (s.cacheableAt g lseBytes).isSome) (ovenFault badCaching 0 g)

/-- What LSE_INIT checks (R185, R413). -/
def State.lseInitCheck (s : State) (x : Issue) (o : AtomicOps) : Option QFault :=
  firstFault [s.cellHeader x 0x11 true,
    if 4096 ≤ o.event.toNat then some (operandFault 44)
    else failUnless (isKernel x.queue || s.inRange x.queue o.event.toNat) (ovenFault badEvent o.event.toNat),
    failUnless (between 1 o.n.toNat 256) (operandFault 40), failUnless (between 1 o.count.toNat 1024) (operandFault 42),
    s.recordFault o.addr.toNat]

/-- LSE_INIT writes a record (R185). -/
def State.runInit (s : State) (o : AtomicOps) (hw : Hw) : CellDone :=
  let r := s.lseInit hw (o.addr.toNat % 2 ^ 44) o.n.toNat o.count.toNat (AtomicOps.final o) o.value.toNat o.event.toNat
  ⟨r.1, {}, none, (!r.2).toNat, []⟩

def execLseInit (x : Issue) (o : AtomicOps) (s : State) : Host.Outcome State Fault Refusal :=
  .next (s.issue x 0x11 (spellsAtomic o 0x10) (fun t _ => t.lseInitCheck x o)
    fun hw t => t.cellWork hw x fun _ u => u.runInit o hw)

/-- What LSE_MERGE checks before its record is read (R182, R409). -/
def State.lseMergeCheck (s : State) (x : Issue) (o : AtomicOps) : Option QFault :=
  firstFault [s.cellHeader x 0x11 true, failUnless (between 1 o.n.toNat 256) (operandFault 40),
    bufOperand o.result.toNat (128 + 4 * o.n.toNat) 12, s.recordFault o.addr.toNat]

/-- LSE_MERGE folds or parks the partial of a cell buffer (R186, R187). -/
def State.runMerge (s : State) (o : AtomicOps) (hw : Hw) (c : Nat) : CellDone :=
  let p := readPartial (s.bufRead c o.result.toNat (128 + 4 * o.n.toNat)) o.n.toNat
  let r := s.lseMerge hw (o.addr.toNat % 2 ^ 44) o.ordinal.toNat o.n.toNat p
  match r.2.1 with
  | .done => .ok r.1 r.2.2
  | .stuck => ⟨r.1, r.2.2, none, 1, []⟩
  | .refused f => .bad r.1 f c

def execLseMerge (x : Issue) (o : AtomicOps) (s : State) : Host.Outcome State Fault Refusal :=
  .next (s.issue x 0x11 (spellsAtomic o 0x11) (fun t _ => t.lseMergeCheck x o)
    fun hw t => t.cellWork hw x fun c u => u.runMerge o hw c)

/-! ### AMO, LR and SC of the cores -/

/-- The operation code of R178 that an AMO performs, where there is one. -/
def coreNew (op : CoreOp) (w old v : Nat) : Nat :=
  match op with
  | .swap | .sc => v
  | .lr => old
  | .add => (old + v) % 2 ^ w
  | .xor => old ^^^ v
  | .and => old &&& v
  | .or => old ||| v
  | .min => if signedOf w v < signedOf w old then v else old
  | .max => if signedOf w old < signedOf w v then v else old
  | .minu => min old v
  | .maxu => max old v

/-- A value returned to a core: of 32 bits, it is sign-extended (PRESUMED: the RISC-V A extension). -/
def coreReturn (double : Bool) (v : Nat) : DWord :=
  if double then BitVec.ofNat 64 v else (BitVec.ofNat 32 v).signExtend 64

/-- The reservation of a core set or dropped (R180; log entry 25). -/
def State.reserve (s : State) (core : Fin 8) (line : Option Nat) : State :=
  { s with cache := { s.cache with reserved := s.cache.reserved.set none core line } }

/-- An AMO, LR or SC on a cacheable address, in its slice (R180, R181). -/
def State.runCore (s : State) (core : Fin 8) (op : CoreOp) (double : Bool) (a v : Nat) (hw : Hw) : State :=
  let w := if double then 64 else 32
  let line := a / 128 * 128
  let held := s.cache.reserved.get none core == some line
  if op = .sc ∧ held = false then (s.reserve core none).emit (.coreValue core 1)
  else
    let r := s.touchLine hw (a / 128) (op != .lr) (some core)
    if r.2 then
      let old := r.1.memNat a (w / 8)
      let t := if op = .lr then r.1.reserve core (some line)
        else r.1.memWrite a (toBytes (w / 8) (coreNew op w old (v % 2 ^ w)))
      let t := if op = .sc then t.reserve core none else t
      t.emit (.coreValue core (if op = .sc then 0 else coreReturn double old))
    else r.1

/-- A read-modify-write of an on-die core at a physical address (R180, R450). -/
def execCoreAmo (core : Fin 8) (op : CoreOp) (double : Bool) (addr value : DWord) (hw : Hw) (s : State) :
    Host.Outcome State Fault Refusal :=
  .next (if s.frontRuns then
    let n := if double then 8 else 4
    if decide (addr.toNat % n = 0) && s.allCacheable addr.toNat n then
      s.overFabric hw fun t => t.runCore core op double addr.toNat value.toNat hw
    else (s.bump 0x3400 0x31 0 1).emit (.coreFault core)
  else s)

end Sys2Proof.Machine
end

