-- ==== Sys2Proof/Machine/Kv.lean ====
section
/-! DEFINITION. Machine/Kv.lean: KV pools, page lists, KV_APPEND and KV_ATTEND (chapter 09). -/

namespace Sys2Proof.Machine

/-! ### Pools and pages -/

/-- A pool descriptor (R278). -/
structure Pool where
  size : Nat
  layers : Nat
  heads : Nat
  group : Nat
  dim : Nat
  mask : Nat
  frames : Nat
  base : Nat
  stride : Nat
  table : Nat
  names : Nat
  deriving DecidableEq, Repr

/-- The 64 bytes of a descriptor, as a number, read (R278). -/
def poolOf (v : Nat) : Pool :=
  let f (byte n : Nat) : Nat := bits v (8 * byte) (8 * n)
  ⟨f 0 2, f 2 2, f 4 1, f 5 1, f 6 2, f 8 2, f 12 4, f 16 8, f 24 8, f 32 8, f 40 4⟩

/-- The descriptor of pool p, when it is configured (R278). -/
def State.pool (s : State) (p : Nat) : Option Pool :=
  let d := poolOf (s.led 0x5000 (0x10 + p))
  if p < 8 ∧ d.size ≠ 0 then some d else none

/-- Row bytes (R279). -/
def Pool.row (d : Pool) : Nat := 4 * d.heads * d.dim

/-- Query heads (R279). -/
def Pool.queryHeads (d : Pool) : Nat := d.heads * d.group

/-- The local address of slot t of frame f of a layer in a cell (R279, R284). -/
def Pool.slotAddress (d : Pool) (c layer f t : Nat) : Nat :=
  c * 2 ^ 33 + d.base + layer * d.stride + f * (d.size * d.row) + t * d.row

/-- Device, cell and page index of a page number (R283). -/
def pageDevice (pn : Nat) : Nat := bits pn 29 3
def pageCell (pn : Nat) : Nat := bits pn 25 4
def pageIndex (pn : Nat) : Nat := bits pn 0 25

/-- No page (R283). -/
def noPage : Nat := 0xFFFFFFFF

/-- The page is on this device (R283, R320). -/
def State.ownPage (s : State) (pn : Nat) : Bool := pageDevice pn == s.uhleg.devId.toNat

/-- The page number could name a page of the pool: every check of R283 but its page table. -/
def State.pageNamed (s : State) (d : Pool) (pn : Nat) : Bool :=
  pn != noPage && pageIndex pn != 0x1FFFFFF && bit d.mask (pageCell pn) &&
    (!s.ownPage pn || decide (pageIndex pn < d.names))

/-! ### Reads that may be withheld -/

/-- Bytes read by a command, with whether every read so far was delivered (R155). -/
def State.readSome (s : State × Bool) (hw : Hw) (a n : Nat) : (State × Bool) × List Byte :=
  let r := s.1.load hw a n
  ((r.1, s.2 && r.2.isSome), r.2.getD [])

/-- The frame that a local page maps to, when it is valid (R282, R283). -/
def State.readFrame (s : State × Bool) (hw : Hw) (d : Pool) (pn : Nat) : (State × Bool) × Option Nat :=
  let r := State.readSome s hw (pageCell pn * 2 ^ 33 + d.table + 4 * pageIndex pn) 4
  let f := ofBytes r.2
  (r.1, if f < d.frames then some f else none)

/-! ### Page lists -/

/-- The 64 bytes of a header read (R285). -/
def listHead (l : List Byte) : ListHead :=
  { len := imageNat l 0 4, seq := imageNat l 4 2, pool := imageNat l 6 1, home := bits (imageNat l 7 1) 0 4
    reserved := imageNat l 8 4, cap := imageNat l 12 2, gone := bit (imageNat l 14 2) 0, window := imageNat l 16 4
    from_ := imageNat l 20 4, stats := imageNat l 24 8, records := imageNat l 32 8 }

/-- KV fault causes (R312). -/
def kvNoPage : Nat := 1
def kvPosition : Nat := 2
def kvLimit : Nat := 3
def kvBadPage : Nat := 4
def kvBadList : Nat := 5
def kvMisroute : Nat := 6

/-- A KV fault (R312): its record as detail; a sequence id is given when the header was read. -/
def kvFault (cause : Nat) (seq : Option Nat) (entry page : Nat) (cell : Nat) : QFault :=
  let record := cause + (seq.getD 0) % 4096 * 2 ^ 4 + entry % 4096 * 2 ^ 16 + seq.isSome.toNat * 2 ^ 31 + page % 2 ^ 32 * 2 ^ 32
  ⟨badKv, record, 0, cell⟩

/-- The cause of a KV fault. -/
def kvCause (f : QFault) : Nat := f.detail % 16

/-- The fault that decides when several arise together: the lowest cause of R435, then the lowest code of R312. -/
def lowestFault : List QFault → Option QFault
  | [] => none
  | f :: t =>
    match lowestFault t with
    | none => some f
    | some g => if g.cause < f.cause ∨ (g.cause = f.cause ∧ g.cause = badKv ∧ kvCause g < kvCause f) then some g else some f

/-- The page-list header of a sequence, with its local address, and what is wrong with it (R312): none where the list lies
outside cacheable memory. -/
def State.readHead (s : State × Bool) (hw : Hw) (d : Pool) (pool : Nat) (list cell : Nat) :
    (State × Bool) × Option (Nat × ListHead) × List QFault :=
  match s.1.cacheableAt list 64 with
  | none => (s, none, [kvFault kvBadList none 0xFFF noPage cell])
  | some a =>
    let r := State.readSome s hw a 64
    let h := listHead r.2
    let ok := h.pool == pool && decide (h.seq ≤ 4095) && bit d.mask h.home && r.1.1.allCacheable a (64 + 4 * h.cap)
    (r.1, some (a, h), if ok then [] else [kvFault kvBadList (some h.seq) 0xFFF noPage cell])

/-- REMOTE_GONE set in a page list, with the device (R287); the sequence is counted once. -/
def State.markGone (s : State) (hw : Hw) (list : Nat) (device : Nat) : State :=
  match s.cacheableAt list 64 with
  | none => s
  | some a =>
    let r := s.load hw (a + 14) 2
    let st := ofBytes (r.2.getD [])
    if r.2.isNone || bit st 0 then r.1
    else (r.1.store hw (a + 14) (toBytes 2 (st / 16 * 16 + 1 + device % 8 * 2))).bump 0x5000 0x25 0 1

/-! ### Page transactions -/

/-- The geometry extension of a page transaction (R506). -/
def geometry (d : Pool) (first count : Nat) : List Byte :=
  toBytes 2 d.size ++ toBytes 2 d.layers ++ [byte d.heads, byte d.group] ++ toBytes 2 d.dim ++ toBytes 2 first ++
    toBytes 2 count ++ [0, 0, 0, 0]

/-- A page request's header and extension (R506). -/
def pageRequest (opcode cls pool layer pn : Nat) (d : Pool) (first count : Nat) : List Byte :=
  requestHeader opcode cls 0 (count * d.row) (pn + pool * 2 ^ 32 + layer * 2 ^ 48) ++ geometry d first count

/-- A slot range in transactions of at most 1 MiB (R509): first slot and count of each. -/
def slotParts (d : Pool) (first count : Nat) : List (Nat × Nat) :=
  let step := max 1 (2 ^ 20 / d.row)
  (countFrom 0 ((count + step - 1) / step)).map fun i => (first + i * step, min step (count - i * step))

/-! ### KV_APPEND -/

/-- What the Oven checks of KV_APPEND (R293, R409). -/
def State.appendCheck (s : State) (x : Issue) (o : AppendOps) : Option QFault :=
  let d := s.pool o.pool.toNat
  firstFault [s.cellHeader x 0x30 true, failUnless (decide (o.pool.toNat ≤ 7)) (operandFault 8),
    failUnless ((d.map fun d => decide (o.layer.toNat < d.layers)).getD true) (operandFault 10),
    failUnless (between 1 o.count.toNat 512) (operandFault 16),
    bufOperand o.source.toNat (o.count.toNat * ((d.map Pool.row).getD 0)) 20]

/-- What an append finds in the entries it needs (R293, R312): what is wrong, the page number and frame of each (a remote page
has none), and the reserved page left. -/
structure AppendPlan where
  faults : List QFault
  pages : List (Nat × Nat)
  reserved : Nat

/-- The entries of an append (R293): every cause that arises is found, so that the lowest decides (R312). -/
def State.appendEntries (hw : Hw) (d : Pool) (a : Nat) (h : ListHead) (p c : Nat) :
    List Nat → State × Bool → Nat → Bool → (State × Bool) × AppendPlan
  | [], s, reserved, _ => (s, ⟨[], [], reserved⟩)
  | e :: t, s, reserved, taken =>
    let bad (cond : Bool) (cause page : Nat) : List QFault := if cond then [kvFault cause (some h.seq) e page c] else []
    if h.cap ≤ e then (s, ⟨bad true kvBadList noPage, [], reserved⟩)
    else
      let r := State.readSome s hw (a + 64 + 4 * e) 4
      let old := ofBytes r.2
      let fresh := old == noPage
      let none_ := fresh && (taken || reserved == noPage)
      let pn := if fresh then reserved else old
      let f := if !none_ && r.1.1.pageNamed d pn then
          (if r.1.1.ownPage pn then State.readFrame r.1 hw d pn else (r.1, some 0))
        else (r.1, none)
      let q := State.appendEntries hw d a h p c t f.1 (if fresh then noPage else reserved) (taken || fresh)
      (q.1, ⟨bad (fresh && decide (e * d.size < p)) kvPosition noPage ++ bad none_ kvNoPage noPage ++
          bad (!none_ && f.2.isNone) kvBadPage pn ++ bad (!none_ && pageCell pn != c) kvMisroute pn ++ q.2.faults,
        (pn, f.2.getD 0) :: q.2.pages, q.2.reserved⟩)

/-- The rows of an append that go to one page, by its number and frame (R293, R294): written, or sent as page writes; how many
answers are then awaited. -/
def State.appendPage (s : State) (x : Issue) (o : AppendOps) (d : Pool) (hw : Hw) (c pn f e : Nat) : State × Nat :=
  let p := o.position.toNat
  let lo := max p (e * d.size)
  let hi := min (p + o.count.toNat) ((e + 1) * d.size)
  let src := o.source.toNat + (lo - p) * d.row
  let bytes := s.bufRead c src ((hi - lo) * d.row)
  if s.ownPage pn then
    ((s.store hw (d.slotAddress c o.layer.toNat f (lo - e * d.size)) bytes).bump 0x5000 0x20 0 (hi - lo), 0)
  else
    (slotParts d (lo - e * d.size) (hi - lo)).foldl (fun (r : State × Nat) w =>
      let data := (bytes.drop ((w.1 - (lo - e * d.size)) * d.row)).take (w.2 * d.row)
      let t := r.1.request (r.1.portTo (pageDevice pn))
        (pageRequest 5 3 o.pool.toNat o.layer.toNat pn d w.1 w.2 ++ data) 5 (w.2 * d.row)
        (.append x.queue x.place o.list e (BitVec.ofNat 32 pn) w.2)
      (if t.2 then t.1 else t.1.markGone hw o.list.toNat (pageDevice pn), r.2 + t.2.toNat)) (s, 0)

/-- The page-list update and the rows of an append (R293). -/
def State.append (s : State) (x : Issue) (o : AppendOps) (d : Pool) (hw : Hw) (c a : Nat) (h : ListHead)
    (pages : List (Nat × Nat)) (reserved : Nat) : CellDone :=
  let p := o.position.toNat
  let e0 := p / d.size
  let s := s.store hw (a + 64 + 4 * e0) (pages.flatMap fun pn => toBytes 4 pn.1)
  let s := s.store hw (a + 8) (toBytes 4 reserved)
  let s := s.store hw a (toBytes 4 (max h.len (p + o.count.toNat)))
  let r := (pages.zip (countFrom e0 pages.length)).foldl (fun (r : State × Nat) w =>
    let t := r.1.appendPage x o d hw c w.1.1 w.1.2 w.2
    (t.1, r.2 + t.2)) (s, 0)
  ⟨r.1, {}, none, r.2, []⟩

/-- KV_APPEND in its cell (R293, R312). -/
def State.appendCell (s : State) (x : Issue) (o : AppendOps) (hw : Hw) (c : Nat) : CellDone :=
  match s.pool o.pool.toNat with
  | none => .bad s (kvFault kvBadList none 0xFFF noPage c) c
  | some d =>
    let p := o.position.toNat
    let n := o.count.toNat
    let stuck (s : State) : CellDone := ⟨s, {}, none, 1, []⟩
    let r := State.readHead (s, true) hw d o.pool.toNat o.list.toNat c
    match r.2.1 with
    | none => .bad r.1.1 (r.2.2.headD (kvFault kvBadList none 0xFFF noPage c)) c
    | some (a, h) =>
      let e0 := p / d.size
      let q := State.appendEntries hw d a h p c (countFrom e0 ((p + n - 1) / d.size - e0 + 1)) r.1 h.reserved false
      let faults := r.2.2 ++ (if h.len < p then [kvFault kvPosition (some h.seq) e0 noPage c] else []) ++
        (if 65536 < p + n then [kvFault kvLimit (some h.seq) 0xFFF noPage c] else []) ++ q.2.faults
      if !q.1.2 then stuck q.1.1
      else
        match lowestFault faults with
        | some f => .bad q.1.1 f c
        | none => q.1.1.append x o d hw c a h q.2.pages q.2.reserved

/-- KV_APPEND. -/
def execKvAppend (x : Issue) (o : AppendOps) (s : State) : Host.Outcome State Fault Refusal :=
  .next (s.issue x 0x30 (fun r => readAppend r = o) (fun t _ => t.appendCheck x o)
    fun hw t => t.cellWork hw x fun c u => u.appendCell x o hw c)

/-! ### The attention launch: plan -/

/-- The first visible position (R298, R321). -/
def Query.low (y : Query) : Nat := if y.head.window = 0 then y.head.from_ else max y.head.from_ (y.q + 1 - y.head.window)

/-- The visible range is empty (R298). -/
def Query.empty (y : Query) : Bool := decide (y.q < y.low)

/-- The entries of the pages of a query (R299). -/
def Query.pages (y : Query) (d : Pool) : List Nat :=
  if y.empty then [] else countFrom (y.low / d.size) (y.q / d.size - y.low / d.size + 1)

/-- P of R299. -/
def Query.count (y : Query) (d : Pool) : Nat := if y.empty then 1 else (y.pages d).length

/-- The first visible slot of a page of the query, and how many are visible (R304). -/
def Query.slots (y : Query) (d : Pool) (e : Nat) : Nat × Nat :=
  let lo := max y.low (e * d.size) - e * d.size
  (lo, min y.q (e * d.size + d.size - 1) - e * d.size - lo + 1)

/-- The record of a query head: the local address of its entry in the record table (R300). -/
def Query.recordEntry (y : Query) (d : Pool) (h : Nat) : Nat :=
  (y.head.records + 16 * (y.set * d.queryHeads + h)) % 2 ^ 44

/-- Address and spill base of the record of a query head. -/
def Query.record (y : Query) (h : Nat) : Nat × Nat := y.records.getD h (0, 0)

/-- Bytes of the row statistics of one layer (R308). -/
def Pool.statBytes (d : Pool) : Nat := 128 * ((2 * d.queryHeads + 127) / 128)

/-- A page that a cell keeps for a query (R302, step 3): the query's index, the entry, the page, and its frame when it is local. -/
structure Kept where
  index : Nat
  entry : Nat
  page : Nat
  frame : Nat

/-- The entries of a query as a cell reads them (R302, steps 3 and 4): the pages whose cell field is its own are kept and
checked; one that names no cell of the pool is found by every cell. -/
def State.keepPages (hw : Hw) (d : Pool) (y : Query) (c : Nat) :
    List Nat → State × Bool → (State × Bool) × List Kept × List QFault
  | [], s => (s, [], [])
  | e :: t, s =>
    if y.head.cap ≤ e then (s, [], [kvFault kvBadList (some y.head.seq) e noPage c])
    else
      let r := State.readSome s hw (y.addr + 64 + 4 * e) 4
      let pn := ofBytes r.2
      let mine := pageCell pn == c
      let f := if mine && r.1.1.pageNamed d pn then
          (if r.1.1.ownPage pn then State.readFrame r.1 hw d pn else (r.1, some 0))
        else (r.1, none)
      let rest := State.keepPages hw d y c t f.1
      (rest.1, (match f.2 with
        | some v => [⟨y.index, e, pn, v⟩]
        | none => []) ++ rest.2.1,
        (if f.2.isNone && (mine || !bit d.mask (pageCell pn)) then [kvFault kvBadPage (some y.head.seq) e pn c] else []) ++
          rest.2.2)

/-- The records of a query as the record table names them (R300): the table read once. -/
def State.readRecords (s : State × Bool) (hw : Hw) (d : Pool) (y : Query) : (State × Bool) × List (Nat × Nat) :=
  let r := State.readSome s hw (y.recordEntry d 0) (16 * d.queryHeads)
  (r.1, (countFrom 0 d.queryHeads).map fun h => (imageNat r.2 (16 * h) 8, imageNat r.2 (16 * h + 8) 8))

/-- What the home cell finds wrong with the records and the statistics buffer of a query (R180, R300, R308, R312), with the
query as it then knows its records. -/
def State.homeQuery (s : State × Bool) (hw : Hw) (d : Pool) (y : Query) (layer c : Nat) : (State × Bool) × Query × List QFault :=
  let stats := y.head.stats + layer * d.statBytes
  let okStats := y.head.stats = 0 ∨ (y.head.stats % 128 = 0 ∧
    ((s.1.localOf y.head.stats).map fun a => populated (a + layer * d.statBytes) d.statBytes).getD false)
  let bad : List QFault := if okStats then [] else [⟨badAddress, 0, stats, c⟩]
  if (s.1.cacheableAt (y.head.records + 16 * (y.set * d.queryHeads)) (16 * d.queryHeads)).isSome then
    let r := State.readRecords s hw d y
    (r.1, { y with records := r.2 },
      bad ++ (r.2.filterMap fun x => r.1.1.recordFault x.1).map fun f => { f with cell := c })
  else (s, y, kvFault kvBadList (some y.head.seq) 0xFFF noPage c :: bad)

/-- What a cell knows of a launch before anything is done: the queries, the pages it keeps, and what is wrong. -/
structure CellPlan where
  cell : Nat
  queries : List Query
  kept : List Kept
  faults : List QFault

/-- One entry of the query table as a cell reads and checks it (R300, R302, R309, R312). -/
def State.planEntry (s : State × Bool) (hw : Hw) (o : AttendOps) (d : Pool) (i : Nat) (p : CellPlan) :
    (State × Bool) × CellPlan :=
  let c := p.cell
  let r := State.readSome s hw (o.table.toNat % 2 ^ 44 + 16 * i) 16
  let list := imageNat r.2 0 8
  let q := imageNat r.2 8 4
  let lane := imageNat r.2 12 2
  let set := imageNat r.2 14 2
  let size := 2 * d.dim * d.queryHeads
  let range (base stride : Word) : List QFault :=
    (bufFault (base.toNat + lane * stride.toNat) size).toList.map fun f => { f with cell := c }
  let ranges := range o.queryBase o.queryStride ++ range o.outBase o.outStride
  let hd := State.readHead r.1 hw d o.pool.toNat list c
  match hd.2.1 with
  | none => (hd.1, { p with faults := p.faults ++ ranges ++ hd.2.2 })
  | some (a, h) =>
    let y : Query := ⟨i, list, q, lane, set, a, h, []⟩
    let at_ (cause : Nat) : List QFault := [kvFault cause (some h.seq) 0xFFF noPage c]
    let home := h.home == c
    let same := home && p.queries.any fun z => z.list == list && z.set == set
    let pos := if 65535 < q then at_ kvLimit else if h.len ≤ q then at_ kvPosition else []
    let pages := if pos = [] then State.keepPages hw d y c (y.pages d) hd.1 else (hd.1, [], [])
    let rec_ := if home then State.homeQuery pages.1 hw d y o.layer.toNat c else (pages.1, y, [])
    (rec_.1, { p with
      queries := p.queries ++ [rec_.2.1], kept := p.kept ++ pages.2.1
      faults := p.faults ++ ranges ++ hd.2.2 ++ (if same then at_ kvBadList else []) ++ pos ++ pages.2.2 ++ rec_.2.2 })

/-- Every entry of the query table, in order, in one cell. -/
def State.planCell (hw : Hw) (o : AttendOps) (d : Pool) : List Nat → State × Bool → CellPlan → (State × Bool) × CellPlan
  | [], s, p => (s, p)
  | i :: t, s, p =>
    let r := State.planEntry s hw o d i p
    State.planCell hw o d t r.1 r.2

/-- Every cell of the launch, in ascending order. -/
def State.plan (hw : Hw) (o : AttendOps) (d : Pool) : List Nat → State × Bool → (State × Bool) × List CellPlan
  | [], s => (s, [])
  | c :: t, s =>
    let r := State.planCell hw o d (countFrom 0 o.queries.toNat) s ⟨c, [], [], []⟩
    let q := State.plan hw o d t r.1
    (q.1, r.2 :: q.2)

/-- The queries of a launch, each as its home cell knows it. -/
def launchQueries (plans : List CellPlan) : List Query :=
  plans.flatMap fun p => p.queries.filter fun y => y.head.home == p.cell

/-! ### The attention launch: the block arithmetic -/

/-- BF16 code i of bytes. -/
def bf16At (l : List Byte) (a : Nat) : Bf16 := BitVec.ofNat 16 (imageNat l a 2)

/-- An accumulation over K spans of 128 of a BF16 pass from +0 (R41, R305). -/
def spanSums (xs ws : List Fp) : F32 × ArithFlags :=
  (countFrom 0 ((xs.length + 127) / 128)).foldl (fun (r : F32 × ArithFlags) i =>
    let e := passElement ((xs.drop (128 * i)).take 128) ((ws.drop (128 * i)).take 128) r.1 false
    (e.1, r.2.join e.2)) (0, {})

/-- The partial of one query head on one page (R305): Q, K by slot, V by dimension, and the visible slots. -/
def pagePartial (q : List Bf16) (k v : List (List Bf16)) (scale : F32) (first count : Nat) : Partial × ArithFlags :=
  let live (t : Nat) : Bool := decide (first ≤ t) && decide (t < first + count)
  let qs := q.map bf16Value
  let scores := k.map fun row => spanSums qs (row.map bf16Value)
  let xs := (scores.zip (countFrom 0 scores.length)).map fun e =>
    if live e.2 then f32Mul e.1.1 scale else (f32Inf true, {})
  let b := blockStats live (xs.map Prod.fst)
  let ps := b.2.2.1.map bf16Value
  let o := v.map fun col => spanSums ps (col.map bf16Value)
  let f := o.foldl (fun g e => g.join e.2) (xs.foldl (fun g e => g.join e.2) (scores.foldl (fun g e => g.join e.2) b.2.2.2))
  let nan (l : List Bf16) : Bool := l.any fun x => (bf16Value x).isNan
  (⟨b.1, b.2.1, o.map Prod.fst⟩,
    f.withNan (nan q || k.any nan || v.any nan || isNan scale || nan b.2.2.1 || xs.any fun x => isNan x.1))

/-- The rows of one part (K: `part` 0, V: `part` 1) of KV head j by slot, +0 in the slots that are not visible (R284,
R302). -/
def pageRows (d : Pool) (rows : List Byte) (first count j part : Nat) : List (List Bf16) :=
  (countFrom 0 d.size).map fun t =>
    if first ≤ t ∧ t < first + count then
      let base := (t - first) * d.row + 2 * d.dim * (part * d.heads + j)
      (countFrom 0 d.dim).map fun i => bf16At rows (base + 2 * i)
    else List.replicate d.dim 0

/-- A BF16 tile of columns of 128 elements, as bytes (R203). -/
def tileOf (cols : List (List Bf16)) : List Byte :=
  cols.flatMap fun col => (padTo 0 128 col).flatMap fun x => toBytes 2 x.toNat

/-- Column n of a BF16 tile (R203). -/
def tileColumn (tile : List Byte) (n : Nat) : List Bf16 :=
  (chunks 2 ((tile.drop (256 * n)).take 256)).map fun b => BitVec.ofNat 16 (ofBytes b)

/-- The tiles that the DMA engine writes of the visible rows of a page (R302, step 5): of each KV head the K tiles, column t for
slot t, over spans of 128 dimensions, and the V tiles, column n for dimension n, over spans of 128 slots. -/
def stageOf (d : Pool) (rows : List Byte) (first count : Nat) : Stage :=
  let heads := countFrom 0 d.heads
  { k := heads.map fun j =>
      let r := pageRows d rows first count j 0
      (countFrom 0 (d.dim / 128)).map fun i => tileOf (r.map fun row => (row.drop (128 * i)).take 128)
    v := heads.map fun j =>
      let r := pageRows d rows first count j 1
      (countFrom 0 ((d.size + 127) / 128)).map fun i =>
        tileOf ((countFrom 0 d.dim).map fun n => ((r.drop (128 * i)).take 128).map fun row => row.getD n 0) }

/-- Column n of consecutive tiles: its elements over their K spans. -/
def spanColumn (tiles : List (List Byte)) (n : Nat) : List Bf16 := tiles.flatMap fun t => tileColumn t n

/-- The partial of query head h of a query on the page that a cell has staged (R16, R305). -/
def State.headPartial (s : State) (o : AttendOps) (d : Pool) (c lane h first count : Nat) : Partial × ArithFlags :=
  let g := (s.cells.stage.get none c).getD ⟨[], []⟩
  let j := h / d.group
  let base := o.queryBase.toNat + lane * o.queryStride.toNat + 2 * d.dim * h
  let q := (countFrom 0 d.dim).map fun i => BitVec.ofNat 16 (s.bufNat c (base + 2 * i) 2)
  pagePartial q ((countFrom 0 d.size).map (spanColumn (g.k.getD j [])))
    ((countFrom 0 d.dim).map fun n => (spanColumn (g.v.getD j []) n).take d.size) o.scale first count

/-- The null partial (R302). -/
def nullPartial (d : Pool) : Partial := ⟨f32Inf true, 0, List.replicate d.dim 0⟩

/-! ### The attention launch: merges -/

/-- What a walk did: the state, its flags, the fault that ends it, and whether an uncorrectable error withholds
something. -/
structure Walked where
  state : State
  flags : ArithFlags
  fault : Option QFault
  stuck : Bool

/-- A walk that goes on. -/
def Walked.ok (s : State) : Walked := ⟨s, {}, none, false⟩

/-- One partial for each query head merged with an ordinal (R302). -/
def State.mergeHeads (hw : Hw) (d : Pool) (y : Query) (k c : Nat) : List (Nat × Partial) → Walked → Walked
  | [], w => w
  | (h, p) :: t, w =>
    if w.fault.isSome then w
    else
      let rec_ := (y.record h).1
      match w.state.recordFault rec_ with
      | some f => { w with fault := some { f with cell := c } }
      | none =>
        let r := w.state.lseMerge hw (rec_ % 2 ^ 44) k d.dim p
        let w' : Walked := { w with state := r.1, flags := w.flags.join r.2.2 }
        State.mergeHeads hw d y k c t (match r.2.1 with
          | .done => w'
          | .stuck => { w' with stuck := true }
          | .refused f => { w' with fault := some { f with cell := c } })

/-- Null partials for every query head (R302, steps 2 and 8). -/
def State.mergeNull (s : State) (hw : Hw) (d : Pool) (y : Query) (k c : Nat) : Walked :=
  State.mergeHeads hw d y k c ((countFrom 0 d.queryHeads).map fun h => (h, nullPartial d)) (.ok s)

/-- A page whose visible rows have come is staged in the cell and attended (R302, steps 5 to 7; R305): the Kneader's passes are
counted, and its weight registers and the base latch then hold no tile of a weight stream. -/
def State.attendPage (s : State) (hw : Hw) (o : AttendOps) (d : Pool) (y : Query) (c e : Nat) (rows : List Byte)
    (queue : Nat) (remote : Bool) : Walked :=
  let sl := y.slots d e
  let passes := d.heads * (d.dim / 128 + (d.size + 127) / 128)
  let s := (s.bump (0x4000 + c) 0x10 0 passes).bump (0x4000 + c) 0x11 0 (passes * max (2 * d.group) 16)
  let s := { s with cells := { s.cells with
      stage := s.cells.stage.set none c (some (stageOf d rows sl.1 sl.2))
      latch := s.cells.latch.set none c none
      tile := s.cells.tile.set none c none } }
  let ps := (countFrom 0 d.queryHeads).map fun h => (h, s.headPartial o d c y.lane h sl.1 sl.2)
  let s := (s.bump 0x5000 (if remote then 0x22 else 0x21) 0 1).progress queue (passes + 1)
  let k := e - y.low / d.size
  let w := State.mergeHeads hw d y k c (ps.map fun p => (p.1, p.2.1)) (.ok s)
  { w with flags := ps.foldl (fun f p => f.join p.2.2) w.flags }

/-- The command in flight at a place gains a page fetch. -/
def State.addFetch (s : State) (queue : QueueId) (place : Place) (f : PageFetch) : State :=
  let w := s.work queue
  s.setWork queue { w with inFlight := w.inFlight.map fun x =>
    if x.place = place then { x with fetches := x.fetches ++ [f], waitsFor := x.waitsFor + f.awaited } else x }

/-- A remote page asked for (R302, step 4; R509), or ended at once by TARGET_GONE (step 8, R311). -/
def State.askPage (s : State) (hw : Hw) (x : Issue) (o : AttendOps) (d : Pool) (y : Query) (c e pn : Nat) : Walked :=
  let sl := y.slots d e
  let parts := slotParts d sl.1 sl.2
  let port := s.portTo (pageDevice pn)
  let cell : CellId := Fin.ofNat 16 c
  let r := parts.foldl (fun (r : State × Nat) w =>
    let t := r.1.request port (pageRequest 4 1 o.pool.toNat o.layer.toNat pn d w.1 w.2) 4 (w.2 * d.row)
      (.page x.queue x.place cell y.index e w.1 w.2)
    (t.1, r.2 + t.2.toNat)) (s, 0)
  if r.2 = parts.length then
    .ok (r.1.addFetch x.queue x.place
      ⟨cell, y.index, e, BitVec.ofNat 32 pn, sl.1, sl.2, [], parts.length⟩)
  else ((r.1.markGone hw y.list (pageDevice pn)).progress x.queue 1).mergeNull hw d y (e - y.low / d.size) c

/-- One page that a cell keeps for a query (R302, R303). -/
def State.walkPage (s : State) (hw : Hw) (x : Issue) (o : AttendOps) (d : Pool) (y : Query) (c : Nat) (p : Kept) : Walked :=
  if s.ownPage p.page then
    let sl := y.slots d p.entry
    let r := State.readSome (s, true) hw (d.slotAddress c o.layer.toNat p.frame sl.1) (sl.2 * d.row)
    if r.1.2 then r.1.1.attendPage hw o d y c p.entry r.2 x.queue false else ⟨r.1.1, {}, none, true⟩
  else s.askPage hw x o d y c p.entry p.page

/-- Two walks one after the other: a fault ends them. -/
def Walked.andThen (w : Walked) (f : State → Walked) : Walked :=
  if w.fault.isSome then w
  else
    let v := f w.state
    ⟨v.state, w.flags.join v.flags, v.fault, w.stuck || v.stuck⟩

/-- The walk of one query in a cell (R302). -/
def State.walkQuery (s : State) (hw : Hw) (x : Issue) (o : AttendOps) (d : Pool) (c : Nat) (kept : List Kept) (y : Query) :
    Walked :=
  if y.empty then
    if y.head.home = c then (s.bump 0x5000 0x24 0 1).mergeNull hw d y 0 c else .ok s
  else (kept.filter fun p => p.index == y.index).foldl (fun w p => w.andThen fun s => s.walkPage hw x o d y c p) (.ok s)

/-- The walk of every query in a cell, and its flags (R56, R302, R307). -/
def State.walkCell (s : State) (hw : Hw) (x : Issue) (o : AttendOps) (d : Pool) (ys : List Query) (p : CellPlan) : Walked :=
  let q := s.queue x.queue
  let c := p.cell
  let s := (s.freeLanes c q.laneFirst.toNat q.laneCount.toNat).freeStats c (16 * q.laneFirst.toNat) (16 * q.laneCount.toNat)
  let w := ys.foldl (fun (w : Walked) y => w.andThen fun s => s.walkQuery hw x o d c p.kept y) (Walked.ok s)
  { w with state := w.state.noteFlags x.queue x.place c w.flags, flags := {} }

/-- LSE_INIT of every record of a query (R301). -/
def State.initQuery (hw : Hw) (o : AttendOps) (d : Pool) (y : Query) : List Nat → State × Bool → State × Bool
  | [], s => s
  | h :: t, s =>
    let r := y.record h
    let i := s.1.lseInit hw (r.1 % 2 ^ 44) d.dim (y.count d) true r.2 o.event.toNat
    State.initQuery hw o d y t (i.1, s.2 && i.2)

/-! ### The attention launch: the command -/

/-- What the Oven checks of KV_ATTEND (R300, R307, R407, R409, R413; log entry 40 for the lanes). -/
def State.attendCheck (s : State) (x : Issue) (o : AttendOps) : Option QFault :=
  let d := s.pool o.pool.toNat
  let q := s.queue x.queue
  firstFault [s.headerCheck x.queue 0x31 x.header
      (x.header.mask != 0 && (d.map fun d => decide (x.header.mask.toNat = d.mask)).getD true) false,
    if 4096 ≤ o.event.toNat then some (operandFault 14)
    else failUnless (isKernel x.queue || s.inRange x.queue o.event.toNat) (ovenFault badEvent o.event.toNat),
    failUnless (decide (o.pool.toNat ≤ 7)) (operandFault 8),
    failUnless ((d.map fun d => decide (o.layer.toNat < d.layers)).getD true) (operandFault 10),
    failUnless (between 1 o.queries.toNat 256) (operandFault 12), alignFault o.queryBase.toNat 16 28,
    alignFault o.queryStride.toNat 16 32, alignFault o.outBase.toNat 16 36, alignFault o.outStride.toNat 16 40,
    failUnless ((d.map fun d => decide (d.group ≤ q.laneCount.toNat)).getD true)
      (ovenFault badLanes (q.laneFirst.toNat + ((d.map Pool.group).getD 0) * 2 ^ 16))]

/-- A launch in flight has begun: its readout is still to be made. -/
def State.launch (s : State) (x : Issue) (l : Launch) : State :=
  s.mapFlight x.queue x.place fun f => { f with attend := some l }

/-- A command in flight waits for something that does not come (R155). -/
def State.neverEnds (s : State) (q : QueueId) (place : Place) : State := s.awaits q place 1 []

/-- Phases 1 and 2 of a launch (R301, R302). -/
def State.attend (s : State) (x : Issue) (o : AttendOps) (d : Pool) (hw : Hw) (plans : List CellPlan) : Done :=
  let ys := launchQueries plans
  let i := ys.foldl (fun (r : State × Bool) y => State.initQuery hw o d y (countFrom 0 d.queryHeads) r) (s, true)
  let s := i.1.launch x ⟨o, ys⟩
  if i.2 then
    let w := plans.foldl (fun (w : Walked) p => w.andThen fun s => s.walkCell hw x o d ys p) (Walked.ok s)
    match w.fault with
    | some f => .bad w.state f
    | none => .ok (if w.stuck then w.state.neverEnds x.queue x.place else w.state) .own
  else .ok (s.neverEnds x.queue x.place) .own

/-- KV_ATTEND begins in all of its cells together (R300 to R302; log entry 120): on any cause the launch performs nothing. -/
def State.beginAttend (s : State) (x : Issue) (o : AttendOps) (hw : Hw) : Done :=
  let cells := cellsOf x.header.mask
  let low := cells.headD 0
  if !cells.all (s.begins x.queue x.place) then .ok s .own
  else
  let s := s.leaveSubs x.queue cells
  match s.pool o.pool.toNat with
  | none => .bad s (kvFault kvBadList none 0xFFF noPage low)
  | some d =>
    match s.cacheableAt o.table.toNat (16 * o.queries.toNat) with
    | none => .bad s (kvFault kvBadList none 0xFFF noPage low)
    | some _ =>
      let p := State.plan hw o d cells (s, true)
      if p.1.2 && hw.cellBad.isEmpty then
        match lowestFault (p.2.flatMap CellPlan.faults) with
        | some f => .bad p.1.1 f
        | none => p.1.1.attend x o d hw p.2
      else .ok (p.1.1.neverEnds x.queue x.place) .own

/-- KV_ATTEND. -/
def execKvAttend (x : Issue) (o : AttendOps) (s : State) : Host.Outcome State Fault Refusal :=
  .next (s.issue x 0x31 (fun r => readAttend r = o) (fun t _ => t.attendCheck x o) fun hw t => t.beginAttend x o hw)

/-! ### The attention launch: pages that come, and the readout -/

/-- A query of a launch by its index. -/
def Launch.query (l : Launch) (i : Nat) : Option Query := l.queries.find? fun y => y.index == i

/-- The bytes of a fetch whose parts have all come, in slot order. -/
def PageFetch.rows (f : PageFetch) : List Byte := f.parts.flatMap Prod.snd

/-- A fetch of the launch at a place. -/
def State.fetchOf (s : State) (q : QueueId) (place : Place) (cell : CellId) (index entry : Nat) :
    Option (Launch × PageFetch) :=
  match (s.work q).inFlight.find? fun f => f.place == place with
  | some f =>
    match f.attend, f.fetches.find? fun g => g.cell == cell && g.index == index && g.entry == entry with
    | some o, some g => some (o, g)
    | _, _ => none
  | none => none

/-- A fetch replaced, or taken away. -/
def State.setFetch (s : State) (q : QueueId) (place : Place) (g : PageFetch) (keep : Bool) : State :=
  let w := s.work q
  s.setWork q { w with inFlight := w.inFlight.map fun f =>
    if f.place = place then
      { f with fetches := if keep then f.fetches.map fun h =>
          if h.cell = g.cell ∧ h.index = g.index ∧ h.entry = g.entry then g else h
        else f.fetches.filter fun h => !(h.cell == g.cell && h.index == g.index && h.entry == g.entry) }
    else f }

/-- What a walk did in a launch already in flight, settled: its flags, its fault. -/
def State.settleWalk (q : QueueId) (place : Place) (c : Nat) (w : Walked) : State :=
  let s := w.state.noteFlags q place c w.flags
  match w.fault with
  | some f => s.faultInFlight q place f
  | none => if w.stuck then s.neverEnds q place else s

/-- A part of a page has come (R302, step 5); with the last one the page is attended. -/
def State.pageCame (s : State) (hw : Hw) (q : QueueId) (place : Place) (cell : CellId) (index entry first : Nat)
    (bytes : List Byte) : State :=
  match s.fetchOf q place cell index entry with
  | none => s
  | some (l, g) =>
    let g := { g with parts := g.parts.put first bytes, awaited := g.awaited - 1 }
    let s := s.arrived q place
    if g.awaited ≠ 0 then s.setFetch q place g true
    else
      let s := s.setFetch q place g false
      match s.pool l.ops.pool.toNat, l.query index with
      | some d, some y => State.settleWalk q place cell (s.attendPage hw l.ops d y cell entry g.rows q true)
      | _, _ => s

/-- A page read ended by TARGET_GONE (R302, step 8): once for each page. -/
def State.pageGone (s : State) (hw : Hw) (q : QueueId) (place : Place) (cell : CellId) (index entry : Nat) : State :=
  match s.fetchOf q place cell index entry with
  | none => s
  | some (l, g) =>
    let s := (s.arrived q place g.awaited).setFetch q place g false
    match s.pool l.ops.pool.toNat, l.query index with
    | some d, some y =>
      let s := (s.markGone hw y.list (pageDevice g.page.toNat)).progress q 1
      State.settleWalk q place cell (s.mergeNull hw d y (entry - y.low / d.size) cell)
    | _, _ => s

/-- A page read refused by its target (R310): BAD_PAGE. -/
def State.pageRefused (s : State) (q : QueueId) (place : Place) (cell : CellId) (index entry : Nat) : State :=
  match s.fetchOf q place cell index entry with
  | none => s
  | some (l, g) =>
    let seq := (l.query index).map fun y => y.head.seq
    s.faultInFlight q place (kvFault kvBadPage seq entry g.page.toNat cell)

/-- The records of a query, in head order, as the home cell reads them from its slice. -/
def State.readLses (s : State × Bool) (hw : Hw) : List (Nat × Nat) → (State × Bool) × List LseRec
  | [] => (s, [])
  | x :: t =>
    let r := State.readSome s hw (x.1 % 2 ^ 44) lseBytes
    let q := State.readLses r.1 hw t
    (q.1, readLse r.2 :: q.2)

/-- What a readout finds of a query: REMOTE_GONE in its header, and its records. -/
structure Reading where
  query : Query
  gone : Bool
  records : List LseRec

/-- The headers and records of a launch's queries are read. -/
def State.readQueries (s : State × Bool) (hw : Hw) : List Query → (State × Bool) × List Reading
  | [] => (s, [])
  | y :: t =>
    let h := State.readSome s hw y.addr 64
    let r := State.readLses h.1 hw y.records
    let q := State.readQueries r.1 hw t
    (q.1, ⟨y, (listHead h.2).gone, r.2⟩ :: q.2)

/-- The readout of one query (R306): `best` says that its statistics are those stored (R308). -/
def State.readoutQuery (s : State) (hw : Hw) (q : QueueId) (place : Place) (mask : BitVec 16) (o : AttendOps) (d : Pool)
    (r : Reading) (best : Bool) : State :=
  let y := r.query
  let off := o.outBase.toNat + y.lane * o.outStride.toNat
  let cells := cellIds mask
  if r.gone then s.multicast cells off (List.replicate (2 * d.dim * d.queryHeads) 0)
  else
    let out := (r.records.flatMap fun z => padTo 0 d.dim z.o).map f32ToBf16
    let lse := if best ∧ y.head.stats ≠ 0 then r.records.map fun z => f32ToBf16 z.lse else []
    let f : ArithFlags := (out ++ lse).foldl (fun g e => g.join e.2) {}
    let s := s.multicast cells off (out.flatMap fun e => toBytes 2 e.1.toNat)
    let s := s.noteFlags q place y.head.home f
    if best ∧ y.head.stats ≠ 0 then
      s.store hw (y.head.stats % 2 ^ 44 + o.layer.toNat * d.statBytes)
        (padTo 0 d.statBytes (lse.flatMap fun e => toBytes 2 e.1.toNat))
    else s

/-- The readout of a launch (R306, R308), and whether it was made: not while a record of a query is incomplete, nor where an
uncorrectable error withholds data. -/
def State.readout (s : State) (hw : Hw) (q : QueueId) (place : Place) (mask : BitVec 16) (l : Launch) : State × Bool :=
  match s.pool l.ops.pool.toNat with
  | none => (s, false)
  | some d =>
    let r := State.readQueries (s, true) hw l.queries
    if r.1.2 && hw.cellBad.isEmpty && r.2.all fun x => x.gone || x.records.all LseRec.done then
      (r.2.foldl (fun s x => s.readoutQuery hw q place mask l.ops d x
        (l.queries.all fun z => z.list != x.query.list || decide (z.q ≤ x.query.q))) r.1.1, true)
    else (r.1.1, false)

end Sys2Proof.Machine
end

