-- ==== Sys2Proof/Machine/Tree.lean ====
section
/-! DEFINITION. Machine/Tree.lean: page frames of the pools and the Starter tree (chapter 10). -/

namespace Sys2Proof.Machine

/-! ### Frames -/

/-- The cells of a pool, as this device holds them. -/
def Pool.cells (d : Pool) : List Nat := (countFrom 0 16).filter fun c => bit d.mask c

/-- Frames of a pool mapped in a cell. -/
def State.mappedIn (s : State) (p c : Nat) : List FrameMap := s.runtime.frames.filter fun m => m.pool == p && m.cell == c

/-- Free frames of a pool in a cell (R342). -/
def State.freeFrames (s : State) (p : Nat) (d : Pool) (c : Nat) : Nat := d.frames - (s.mappedIn p c).length

/-- The planned cell of a next page (R348): the most free frames, then the least cell id. -/
def State.plannedCell (s : State) (p : Nat) (d : Pool) : Nat :=
  d.cells.foldl (fun a c => if s.freeFrames p d a < s.freeFrames p d c then c else a) (d.cells.headD 0)

/-- The page number of an index of a cell of this device (R283). -/
def State.pageNumber (s : State) (c i : Nat) : Nat := s.uhleg.devId.toNat * 2 ^ 29 + c * 2 ^ 25 + i

/-- The address of a page table's entry (R282). -/
def Pool.entryAddress (d : Pool) (c i : Nat) : Nat := c * 2 ^ 33 + d.table + 4 * i

/-- The runtime's data replaced. -/
def State.withRuntime (s : State) (f : Runtime → Runtime) : State := { s with runtime := f s.runtime }

/-- A member of a list that the runtime is free to choose (log entry 43). -/
def freeMember (draw col : Nat) (l : List Nat) : Option Nat := l[(Config.freeCount draw col).natAbs % l.length]?

/-- A free frame of a cell mapped to a page index that has none (R282): the page number, when there is one. The runtime's own accesses
are those of its cores, which meet nothing that a command would (log entry 141). -/
def State.mapPage (s : State) (p : Nat) (d : Pool) (c : Nat) : State × Option Nat :=
  let t := s.draw
  let used := s.mappedIn p c
  match freeMember t.1 0 ((countFrom 0 d.frames).filter fun f => used.all fun m => m.frame != f),
      freeMember t.1 1 ((countFrom 0 d.names).filter fun i => used.all fun m => m.index != i) with
  | some f, some i =>
    ((t.2.store quiet (d.entryAddress c i) (toBytes 4 f)).withRuntime fun r => { r with frames := r.frames ++ [⟨p, c, i, f⟩] },
      some (s.pageNumber c i))
  | _, _ => (s, none)

/-- A page of this device is unmapped and its frame free again (R282, R341). -/
def State.unmapPage (s : State) (p pn : Nat) : State :=
  if s.ownPage pn then
    match s.pool p with
    | some d =>
      (s.store quiet (d.entryAddress (pageCell pn) (pageIndex pn)) (toBytes 4 0xFFFFFFFF)).withRuntime fun r =>
        { r with frames := r.frames.filter fun m => !(m.pool == p && m.cell == pageCell pn && m.index == pageIndex pn) }
    | none => s
  else s

/-- The frame of a page of this device. -/
def State.frameOf (s : State) (p pn : Nat) : Option Nat :=
  ((s.runtime.frames.find? fun m => m.pool == p && m.cell == pageCell pn && m.index == pageIndex pn)).map FrameMap.frame

/-! ### Nodes -/

/-- A node, when it is VALID. -/
def State.treeNode (s : State) (i : Nat) : Option TreeNode := s.tree.nodes.get none i

/-- The tree replaced. -/
def State.withTree (s : State) (f : Tree → Tree) : State := { s with tree := f s.tree }

/-- A node replaced. -/
def State.setNode (s : State) (i : Nat) (n : TreeNode) : State :=
  s.withTree fun t => { t with nodes := t.nodes.put i (some n) }

/-- VALID nodes with their indices, in index order. -/
def State.treeNodes (s : State) : List (Nat × TreeNode) := s.tree.nodes.filterMap fun p => p.2.map fun n => (p.1, n)

/-- The least power of two that is at least n. -/
def powerAbove (n : Nat) : Nat := if 2 ^ n.log2 = n then n else 2 ^ (n.log2 + 1)

/-- The chain of a key (R328). -/
def State.chainOf (s : State) (key : DWord) : Nat := key.toNat % powerAbove (s.led 0x5400 0x02)

/-- The key of a root (R325). -/
def State.rootKey (s : State) (record : List Byte) : DWord := sipHash s.fuses.sipKey record

/-- The key of a node (R325). -/
def State.nodeKey (s : State) (parent : DWord) (tokens : List Nat) : DWord :=
  sipHash s.fuses.sipKey (toBytes 8 parent.toNat ++ tokens.flatMap (toBytes 4))

/-- The root record of a model, variant and pool (R324). -/
def rootRecordOf (tag variant pool size : Nat) : List Byte :=
  toBytes 4 tag ++ [byte variant, byte pool] ++ toBytes 2 size ++ List.replicate 8 0

/-- The root of a record. -/
def State.rootOf (s : State) (record : List Byte) : Option Nat :=
  ((s.treeNodes).find? fun n => n.2.root && n.2.rootRecord == record).map Prod.fst

/-- A node is used now (R331). -/
def State.touch (s : State) (i : Nat) : State :=
  match s.treeNode i with
  | some n => s.setNode i { n with lastUse := s.tree.assembly }
  | none => s

/-- A node and its ancestors are used now; `fuel` is the depth. -/
def State.touchPath : Nat → State → Option Nat → State
  | 0, s, _ => s
  | _, s, none => s
  | fuel + 1, s, some i => State.touchPath fuel (s.touch i) ((s.treeNode i).bind TreeNode.parent)

/-- A node's reference count changed. -/
def State.refNode (s : State) (i : Nat) (up : Bool) : State :=
  match s.treeNode i with
  | some n => s.setNode i { n with refs := if up then n.refs + 1 else n.refs - 1 }
  | none => s

/-- The node of a shared page of a pool (R329). -/
def State.nodeOfPage (s : State) (p pn : Nat) : Option Nat :=
  ((s.treeNodes).find? fun n => !n.2.root && n.2.page == pn && n.2.pool == p).map Prod.fst

/-- Children of a node. -/
def State.children (s : State) (i : Nat) : List (Nat × TreeNode) := (s.treeNodes).filter fun n => n.2.parent == some i

/-- The node equal under R332 on the chain of a key, and how many candidates the token compare refused before it (R331). -/
def State.findNode (s : State) (key : DWord) (parent pool : Nat) (tokens : List Nat) : List Nat → Nat → Option Nat × Nat
  | [], n => (none, n)
  | i :: t, n =>
    match s.treeNode i with
    | some c =>
      if c.key = key ∧ c.parent = some parent ∧ c.pool = pool then
        if c.tokens = tokens then (some i, n) else s.findNode key parent pool tokens t (n + 1)
      else s.findNode key parent pool tokens t n
    | none => s.findNode key parent pool tokens t n

/-- The indices on the chain of a key, in chain order (R328, R331; log entry 44). -/
def State.onChain (s : State) (key : DWord) : List Nat := s.tree.chains.get [] (s.chainOf key)

/-- A node is filed under the lowest free index, at the end of its chain (R328; log entry 44). -/
def State.fileNode (s : State) (n : TreeNode) : State × Nat :=
  let i := ((countFrom 0 (s.tree.nodes.length + 1)).find? fun i => (s.treeNode i).isNone).getD 0
  let c := s.chainOf n.key
  ((s.setNode i n).withTree fun t => { t with chains := t.chains.set [] c (t.chains.get [] c ++ [i]) }, i)

/-- The chains made anew, nodes in index order: after a change of the node capacity (R328). -/
def State.refile (s : State) : State :=
  (s.treeNodes).foldl (fun (s : State) n =>
    let c := s.chainOf n.2.key
    s.withTree fun t => { t with chains := t.chains.set [] c (t.chains.get [] c ++ [n.1]) })
    (s.withTree fun t => { t with chains := [] })

/-! ### Eviction -/

/-- A node leaves the tree: unfiled, its page unmapped. -/
def State.dropNode (s : State) (i : Nat) : State :=
  match s.treeNode i with
  | some n =>
    let c := s.chainOf n.key
    let s := s.withTree fun t =>
      { t with nodes := t.nodes.erase i, chains := t.chains.set [] c ((t.chains.get [] c).filter fun j => j != i) }
    if n.root then s else (s.unmapPage n.pool n.page).bump 0x5400 0x24 0 1
  | none => s.withTree fun t => { t with nodes := t.nodes.erase i }

/-- An ancestor of a node, or the node itself. -/
def State.below (s : State) (top : Nat) : Nat → Option Nat → Bool
  | 0, _ => false
  | _, none => false
  | fuel + 1, some i => i == top || s.below top fuel ((s.treeNode i).bind TreeNode.parent)

/-- The node of a list that comes first: the greatest depth, then the least index. -/
def deepestFirst (l : List (Nat × TreeNode)) : List Nat :=
  let deepest := l.foldl (fun d n => max d n.2.depth) 0
  (countFrom 0 (deepest + 1)).reverse.flatMap fun d => (l.filter fun n => n.2.depth == d).map Prod.fst

/-- A subtree is evicted, and the root with its last child (R343). -/
def State.evictSubtree (s : State) (top : Nat) : State :=
  let fuel := s.tree.nodes.length + 1
  let parent := (s.treeNode top).bind TreeNode.parent
  let s := (deepestFirst ((s.treeNodes).filter fun n => s.below top fuel (some n.1))).foldl (fun (s : State) i => s.dropNode i) s
  match parent with
  | some i => if ((s.treeNode i).map TreeNode.root).getD false && (s.children i).isEmpty then s.dropNode i else s
  | none => s

/-- No node of a subtree is referenced. R344 states this of every node of count 0; but a sequence that kept its own copy of a page
(R353) may have put a node of count 1 beneath one. Such a node is not evicted, so that an eviction removes no page that a list
names (DEDUCED, log entry 149). -/
def State.unused (s : State) (top : Nat) : Bool :=
  let fuel := s.tree.nodes.length + 1
  (s.treeNodes).all fun n => n.2.refs == 0 || !s.below top fuel (some n.1)

/-- The node of count 0 to evict (R343): least last use, then least node index, among those that a test picks. -/
def State.evictionCandidate (s : State) (pick : TreeNode → Bool) : Option Nat :=
  (((s.treeNodes).filter fun n => !n.2.root && n.2.refs == 0 && pick n.2 && s.unused n.1).foldl
    (fun (a : Option (Nat × TreeNode)) n => match a with
      | none => some n
      | some b => if n.2.lastUse < b.2.lastUse then some n else a) none).map Prod.fst

/-- Evictions go on while a test holds and a candidate is left; `fuel` is the number of nodes. -/
def State.evictWhile (pick : TreeNode → Bool) (more : State → Bool) : Nat → State → State
  | 0, s => s
  | fuel + 1, s =>
    if more s then
      match s.evictionCandidate pick with
      | some i => State.evictWhile pick more fuel (s.evictSubtree i)
      | none => s
    else s

/-- Evictions of one cell of one pool up to its high-water mark (R343). -/
def State.evictCell (s : State) (p : Nat) (d : Pool) (c : Nat) : State :=
  if s.freeFrames p d c < s.led 0x5400 0x10 p then
    State.evictWhile (fun n => n.pool == p && pageCell n.page == c)
      (fun t => decide (t.freeFrames p d c < t.led 0x5400 0x11 p)) s.tree.nodes.length s
  else s

/-- Every cell of every configured pool is checked (R343). -/
def State.evictShort (s : State) : State :=
  (countFrom 0 8).foldl (fun (s : State) p => match s.pool p with
    | some d => d.cells.foldl (fun (s : State) c => s.evictCell p d c) s
    | none => s) s

/-- One node freed for a full node table (R343). -/
def State.evictForNode (s : State) : State :=
  let n := s.tree.nodes.length
  State.evictWhile (fun _ => true) (fun t => decide (n ≤ t.tree.nodes.length)) n s

/-- Every node of count 0 is evicted (R352). -/
def State.evictUnused (s : State) : State := State.evictWhile (fun _ => true) (fun _ => true) s.tree.nodes.length s

/-- A list entry that names a node's page is released (R341); with the tree disabled, a node whose count reaches 0 is evicted
(R352). -/
def State.releaseNode (s : State) (i : Nat) : State :=
  let s := s.refNode i false
  if s.led 0x5400 0x01 = 0 then s.evictUnused else s

/-! ### The records in memory -/

/-- n bytes at a local address lie in the runtime region and are cacheable (R451). -/
def State.inRegion (s : State) (a n : Nat) : Bool := regionHolds a n && s.allCacheable a n

/-- The member of a list that follows another, as a link (R327). -/
def linkAfter (l : List Nat) (i : Nat) : Nat := ((l.dropWhile fun j => j != i).tail.head?).getD noPage

/-- The 64 bytes of a node's record (R327); children stand in index order (log entry 44). -/
def State.nodeBytes (s : State) (i : Nat) (n : TreeNode) : List Byte :=
  let kids (j : Nat) : List Nat := (s.children j).map Prod.fst
  toBytes 8 n.key.toNat ++ toBytes 4 n.page ++ toBytes 4 (n.parent.getD noPage) ++ toBytes 4 (linkAfter (s.onChain n.key) i) ++
    toBytes 4 ((kids i).headD noPage) ++ toBytes 4 ((n.parent.map fun p => linkAfter (kids p) i).getD noPage) ++ toBytes 4 n.refs ++
    toBytes 8 n.lastUse ++ [0, 0, 0, 0, byte n.pool, byte (2 + n.root.toNat)] ++ toBytes 2 n.depth ++
    padTo 0 16 (if n.root then n.rootRecord else [])

/-- The token record of a node (R327). -/
def TreeNode.tokenBytes (n : TreeNode) : List Byte := padTo 0 2048 (n.tokens.flatMap (toBytes 4))

/-- The record of a node follows the tree: what a node says, the token record of a new one, and the VALID flag of one that has left. -/
def State.storeNode (old : State) (s : State) (i : Nat) : State :=
  let p := s.tree.place
  match s.treeNode i, old.treeNode i with
  | some n, before =>
    let s' := if (before.map fun b => old.nodeBytes i b) = some (s.nodeBytes i n) then s
      else s.store quiet (p.nodes + 64 * i) (s.nodeBytes i n)
    if (before.map TreeNode.tokens) = some n.tokens then s' else s'.store quiet (p.tokens + 2048 * i) n.tokenBytes
  | none, some _ => s.store quiet (p.nodes + 64 * i + 45) [0]
  | none, none => s

/-- The head of a chain follows the tree (R328). -/
def State.storeChain (old : State) (s : State) (c : Nat) : State :=
  let head (t : Tree) : Option Nat := (t.chains.get [] c).head?
  if head s.tree = head old.tree then s
  else s.store quiet (s.tree.place.chains + 4 * c) (toBytes 4 ((head s.tree).getD noPage))

/-- Keys listed in either of two maps. -/
def keysOf {α : Type} (a b : Sparse α) : List Nat := a.map Prod.fst ++ (b.map Prod.fst).filter fun k => decide (k ∉ a.map Prod.fst)

/-- The node table, the token area and the chain heads in memory follow a change of the tree (R327, R328). -/
def State.storeTree (s : State) (before : Tree) : State :=
  let old := { s with tree := before }
  let s := (keysOf before.nodes s.tree.nodes).foldl (State.storeNode old) s
  (keysOf before.chains s.tree.chains).foldl (State.storeChain old) s

/-- Nodes in use and shared references (0x5400:26, 0x5400:27). -/
def State.countTree (s : State) : State :=
  let l := s.treeNodes
  (s.setLed 0x5400 0x26 0 l.length).setLed 0x5400 0x27 0 (l.foldl (fun n x => n + x.2.refs) 0)

/-- Work on the tree, with its records in memory and its entries of the Ledger after it (R327, R328, R351). -/
def State.onTree (s : State) (work : State → State) : State := ((work s).storeTree s.tree).countTree

/-! ### Lookup -/

/-- What a lookup found: the last node matched, its key, and the pages of the entries. -/
structure Found where
  node : Nat
  key : DWord
  pages : List Nat

/-- The loop of R331; `pagesLeft` bounds the pages still to look up. -/
def State.lookupFrom (p size : Nat) (tokens : List Nat) : Nat → State → Found → State × Found
  | 0, s, f => (s, f)
  | left + 1, s, f =>
    let e := f.pages.length
    if tokens.length < (e + 1) * size then (s, f)
    else
      let page := (tokens.drop (e * size)).take size
      let k := s.nodeKey f.key page
      let r := s.findNode k f.node p page (s.onChain k) 0
      let s := (s.bump 0x5400 0x20 0 1).bump 0x5400 0x22 0 r.2
      match r.1 with
      | none => (s, f)
      | some i =>
        let s := State.touchPath (e + 3) ((s.refNode i true).bump 0x5400 0x21 0 1) (some i)
        State.lookupFrom p size tokens left s ⟨i, k, f.pages ++ [((s.treeNode i).map TreeNode.page).getD noPage]⟩

/-- The lookup of a prompt (R331, R333): none when there is no root. -/
def State.lookup (s : State) (p size : Nat) (record : List Byte) (tokens : List Nat) : State × Option Found :=
  match s.rootOf record with
  | none => (s, none)
  | some i =>
    let r := State.lookupFrom p size tokens (tokens.length / max size 1) s ⟨i, s.rootKey record, []⟩
    (r.1, some r.2)

/-- Tokens that two lists begin with in common. -/
def commonPrefix : List Nat → List Nat → Nat
  | a :: t, b :: u => if a = b then 1 + commonPrefix t u else 0
  | _, _ => 0

/-- The child to copy from, and how many slots (R334): the longest agreement, then the least node index. -/
def State.copySource (s : State) (f : Found) (size : Nat) (tokens : List Nat) : Option (Nat × Nat) :=
  let rest := tokens.drop (f.pages.length * size)
  let best := (s.children f.node).foldl (fun (a : Nat × Nat) n =>
    let c := min (commonPrefix n.2.tokens rest) (min rest.length (size - 1))
    if a.2 < c then (n.1, c) else a) (0, 0)
  if 0 < best.2 then some best else none

/-! ### Insertion -/

/-- The root of a record, created if absent (R337): none when the table is full of nodes in use. -/
def State.needRoot (s : State) (p : Nat) (record : List Byte) : State × Option Nat :=
  match s.rootOf record with
  | some i => (s, some i)
  | none =>
    let s := if s.led 0x5400 0x02 ≤ s.tree.nodes.length then s.evictForNode else s
    if s.led 0x5400 0x02 ≤ s.tree.nodes.length then (s, none)
    else
      let r := s.fileNode ⟨s.rootKey record, noPage, none, 0, s.tree.assembly, p, true, 0, record, []⟩
      (r.1, some r.2)

/-- The loop of R337 over the entries of a sequence's page list; `e` counts pages. -/
def State.insertFrom (p size : Nat) (tokens : List Nat) : List Nat → Nat → State → Nat → DWord → State
  | [], _, s, _, _ => s
  | pn :: t, e, s, parent, pkey =>
    match s.nodeOfPage p pn with
    | some i => State.insertFrom p size tokens t (e + 1) s i (((s.treeNode i).map TreeNode.key).getD 0)
    | none =>
      let page := (tokens.drop (e * size)).take size
      let k := s.nodeKey pkey page
      match (s.findNode k parent p page (s.onChain k) 0).1 with
      | some i => State.insertFrom p size tokens t (e + 1) s i k
      | none =>
        if !s.ownPage pn then s
        else
          let s := if s.led 0x5400 0x02 ≤ s.tree.nodes.length then s.evictForNode else s
          if s.led 0x5400 0x02 ≤ s.tree.nodes.length || (s.treeNode parent).isNone then s
          else
            let r := s.fileNode ⟨k, pn, some parent, 1, s.tree.assembly, p, false, e + 1, List.replicate 16 0, page⟩
            State.insertFrom p size tokens t (e + 1) (r.1.bump 0x5400 0x23 0 1) r.2 k

/-- Prompt pages are inserted (R337, R338). -/
def State.insertPages (s : State) (p size : Nat) (record : List Byte) (tokens entries : List Nat) : State :=
  let n := min (tokens.length / max size 1) (s.led 0x5400 0x03)
  match s.needRoot p record with
  | (s, some i) => State.insertFrom p size tokens (entries.take n) 0 s i (s.rootKey record)
  | (s, none) => s

end Sys2Proof.Machine
end

