-- ==== Sys2Proof/Machine/Serve.lean ====
section
/-! DEFINITION. Machine/Serve.lean: the serving register block, token records, model registration and the intake of
requests (chapter 13). -/

namespace Sys2Proof.Machine

/-! ### The runtime -/

/-- The runtime runs: its cores are up and it has written READY (R452, R454, R477). No step goes on once a cause of a halt is
detected (R24, R29; log entry 117). -/
def State.runtimeRuns (s : State) : Bool := s.frontRuns && s.serve.status == 1 && s.life.causes.isEmpty

/-- Sequences that are live (R26, R474): admitted and not ended. -/
def State.liveSequences (s : State) : List Sequence := s.runtime.sequences.filter fun x => !x.ended

/-- A request id is live (R464). -/
def State.liveRequest (s : State) (id : Nat) : Bool :=
  (s.liveSequences.any fun x => x.request.id == id) || s.runtime.intake.any fun i => match i with
    | .request r => r.id == id
    | .cancel _ => false

/-- 0x6400:26 follows the live sequences (R480). -/
def State.countLive (s : State) : State := s.setLed 0x6400 0x26 0 (s.liveSequences.length)

/-! ### Rings -/

/-- Records of the request ring (R457). -/
def ServeRegs.reqSize (r : ServeRegs) : Nat := ringRecords 16 r.reqLog2.toNat

/-- Records of the token ring. -/
def ServeRegs.tokSize (r : ServeRegs) : Nat := ringRecords 20 r.tokLog2.toNat

/-- The serving registers replaced. -/
def State.withServe (s : State) (f : ServeRegs → ServeRegs) : State := { s with serve := f s.serve }

/-- A write of the register at 0x08 (R458). -/
def State.writeRingEnable (s : State) (v : Word) : State :=
  let r := s.serve
  if r.enable then (if v.getLsbD 0 then s else s.withServe fun r => { r with enable := false })
  else if v.getLsbD 0 then
    if r.reqTail = 0 ∧ r.tokHead = 0 then
      s.withServe fun r =>
        { r with enable := true, reqInHost := v.getLsbD 1, tokInHost := v.getLsbD 2, reqHead := 0, tokTail := 0 }
    else s.withServe fun r => { r with reqTailErr := true }
  else s.withServe fun r => { r with reqInHost := v.getLsbD 1, tokInHost := v.getLsbD 2 }

/-- A write of REQ_TAIL (R458, R486), the doorbell that the cores take as an interrupt (R450). -/
def State.writeReqTail (s : State) (v : Word) : State :=
  let r := s.serve
  let n := (v - r.reqHead).toNat
  if !r.enable || (decide ((r.reqTail - r.reqHead).toNat ≤ n) && decide (n ≤ r.reqSize)) then
    (s.withServe fun r => { r with reqTail := v }).interruptCores 65
  else s.withServe fun r => { r with reqTailErr := true }

/-- A write of TOK_HEAD (R458). -/
def State.writeTokHead (s : State) (v : Word) : State :=
  let r := s.serve
  if !r.enable || decide ((v - r.tokHead).toNat ≤ (r.tokTail - r.tokHead).toNat) then
    s.withServe fun r => { r with tokHead := v }
  else s.withServe fun r => { r with tokHeadErr := true }

/-- A dword of a 64-bit register replaced. -/
def withDword (v : DWord) (high : Bool) (w : Word) : DWord :=
  BitVec.ofNat 64 (if high then v.toNat % 2 ^ 32 + w.toNat * 2 ^ 32 else v.toNat / 2 ^ 32 * 2 ^ 32 + w.toNat)

/-- A write of a plain register of the block (R457, R458): the rings' registers are held while RING_ENABLE is 1. -/
def State.writeServePlain (s : State) (off : Nat) (v : Word) : State :=
  let held := s.serve.enable
  if off = 0x10 ∨ off = 0x14 then
    if held then s else s.withServe fun r => { r with reqBase := withDword r.reqBase (off == 0x14) v }
  else if off = 0x18 then (if held then s else s.withServe fun r => { r with reqLog2 := v.setWidth 5 })
  else if off = 0x28 ∨ off = 0x2C then
    if held then s else s.withServe fun r => { r with tokBase := withDword r.tokBase (off == 0x2C) v }
  else if off = 0x30 then (if held then s else s.withServe fun r => { r with tokLog2 := v.setWidth 5 })
  else if off = 0x3C then
    s.withServe fun r =>
      { r with reqTailErr := r.reqTailErr && !v.getLsbD 0, tokHeadErr := r.tokHeadErr && !v.getLsbD 1 }
  else if off = 0x48 ∨ off = 0x4C then s.withServe fun r => { r with modelAddr := withDword r.modelAddr (off == 0x4C) v }
  else s

def execRingEnableWrite (path : AccessPath) (value : Word) (s : State) : Host.Outcome State Fault Refusal :=
  .next (if s.reachesServing path then s.writeRingEnable value else s)

def execReqTailWrite (path : AccessPath) (value : Word) (s : State) : Host.Outcome State Fault Refusal :=
  .next (if s.doorbellActs path then s.writeReqTail value else s)

def execTokHeadWrite (path : AccessPath) (value : Word) (s : State) : Host.Outcome State Fault Refusal :=
  .next (if s.reachesServing path then s.writeTokHead value else s)

/-! ### Lanes and counters for user queues -/

/-- A lane lies in the window of a user queue. -/
def State.laneGranted (s : State) (lane : Nat) : Bool :=
  (countFrom 8 56).any fun q =>
    let x := s.queue q
    decide (x.laneFirst.toNat ≤ lane) && decide (lane < x.laneFirst.toNat + x.laneCount.toNat)

/-- Where a window of n lanes could be granted to a queue (R456): clear of other user queues' windows, and of the lanes of
steps in progress. -/
def State.laneSpans (s : State) (q n : Nat) : List Nat :=
  (countFrom 0 (257 - n)).filter fun first =>
    ((countFrom 8 56).all fun p =>
      p == q || !overlaps first n (s.queue p).laneFirst.toNat (s.queue p).laneCount.toNat) &&
    s.runtime.steps.all fun t => t.lanes.all fun l => decide (l.1 < first) || decide (first + n ≤ l.1)

/-- A counter lies in the range of a queue other than q. -/
def State.counterTaken (s : State) (q first n : Nat) : Bool :=
  (countFrom 0 64).any fun p => p != q && overlaps first n (s.queue p).eventBase.toNat (s.queue p).eventCount.toNat

/-- Where a range of n counters could be granted to a queue (R456): clear of every other queue's range, and of the counters of steps
in progress. -/
def State.counterSpans (s : State) (q n : Nat) : List Nat :=
  (countFrom 0 (4097 - n)).filter fun first =>
    !s.counterTaken q first n && s.runtime.steps.all fun t => !overlaps first n t.counter 1

/-- A grant or a refusal of USERQ_REQUEST (R456, R457); which free lanes and counters it takes is the runtime's choice (log
entry 43). A queue whose window cannot change now is refused (log entry 45). -/
def State.grantUserq (s : State) (v : Word) : State :=
  let q := v.toNat % 64
  let lanes := v.toNat / 256 % 256
  let counters := v.toNat / 65536
  let t := s.draw
  let s := t.2
  let refuse := (s.withServe fun r => { r with userqResult := 3 }).msix 6
  if isKernel q || decide (4095 < counters) || !changeable (s.queue q).state then refuse
  else
    match freeMember t.1 0 (s.laneSpans q lanes), freeMember t.1 1 (s.counterSpans q counters) with
    | some first, some base =>
      let x := s.queue q
      let s := s.setQueue q { x with
        laneFirst := BitVec.ofNat 8 first, laneCount := BitVec.ofNat 9 lanes
        eventBase := BitVec.ofNat 12 base, eventCount := BitVec.ofNat 13 counters }
      (s.withServe fun r => { r with userqResult := BitVec.ofNat 32 (1 + first * 2 ^ 8 + base * 2 ^ 16) }).msix 6
    | _, _ => refuse

def execUserqRequest (path : AccessPath) (value : Word) (s : State) : Host.Outcome State Fault Refusal :=
  .next (if s.reachesServing path ∧ s.runtimeRuns then s.grantUserq value else s)

/-! ### Models -/

/-- A final MODEL_STATUS (R457). -/
def State.modelResult (s : State) (code refusal : Nat) : State :=
  (s.withServe fun r => { r with
    modelStatus := BitVec.ofNat 32 (code + s.runtime.models.length % 256 * 2 ^ 8 + refusal % 2 ^ 16 * 2 ^ 16) }).msix 6

/-- A refusal whose code the spec does not state is a free one (log entry 46). -/
def State.modelRefused (s : State) : State :=
  let t := s.draw
  t.2.modelResult 3 (Config.freeCount t.1 0).natAbs

/-- The manifest header at MODEL_ADDR (R460), when it lies on this device, 4 KiB aligned. -/
def State.manifest (s : State) : Option Model :=
  let g := s.serve.modelAddr.toNat
  match s.target g 64 with
  | .here a =>
    if g % 4096 = 0 then
      some ⟨s.memNat a 4, s.memNat (a + 4) 4, s.memNat (a + 8) 1, s.memNat (a + 9) 1, s.memNat (a + 10) 2,
        s.memNat (a + 12) 4, s.memNat (a + 16) 4⟩
    else none
  | _ => none

/-- The refusal code of a registration (R460), 0 for none: what the header shows, and what the runtime found in the part of
the manifest that the spec leaves opaque. -/
def State.registerCode (s : State) (m : Model) (finding : Nat) : Nat :=
  if m.tag = 0 ∨ !between 2 m.vocabulary 262144 ∨ 7 < m.pool ∨ finding = 1 then 1
  else if s.runtime.models.any fun x => x.tag == m.tag then 2
  else if (s.pool m.pool).isNone ∨ finding = 3 then 3
  else if finding = 4 then 4
  else 0

/-- REGISTER (R460): only in READY. -/
def execRegister (path : AccessPath) (finding : Byte) (s : State) : Host.Outcome State Fault Refusal :=
  .next (if s.reachesServing path ∧ s.runtimeRuns then
      if s.life.state = .ready then
        match s.manifest with
        | none => s.modelResult 3 1
        | some m =>
          let c := s.registerCode m finding.toNat
          if c = 0 then (s.withRuntime fun r => { r with models := r.models ++ [m] }).modelResult 2 0
          else s.modelResult 3 c
      else s.modelRefused
    else s)

/-- A live sequence, or a request that was read, uses a model (R460). -/
def State.modelInUse (s : State) (tag : Nat) : Bool :=
  (s.liveSequences.any fun x => x.request.model.tag == tag) || s.runtime.intake.any fun i => match i with
    | .request r => r.model.tag == tag
    | .cancel _ => false

/-- The model whose manifest MODEL_ADDR names is forgotten, unless it is in use (R460). -/
def State.unregister (s : State) : State :=
  match s.manifest with
  | none => s.modelResult 3 1
  | some m =>
    if (s.runtime.models.any fun x => x.tag == m.tag) && !s.modelInUse m.tag then
      (s.withRuntime fun r => { r with models := r.models.filter fun x => x.tag != m.tag }).modelResult 2 0
    else s.modelRefused

/-- UNREGISTER (R460). -/
def execUnregister (path : AccessPath) (s : State) : Host.Outcome State Fault Refusal :=
  .next (if s.reachesServing path ∧ s.runtimeRuns then s.unregister else s)

/-! ### Token records -/

/-- Stop reasons of R473 that the runtime writes. -/
def stopMaxTokens : Nat := 1
def stopSequence : Nat := 2
def stopLimit : Nat := 3
def stopCancelled : Nat := 4
def stopNumeric : Nat := 5
def stopRejected : Nat := 0x10
def stopAbortRemote : Nat := 0x11
def stopAbortFault : Nat := 0x12

/-- The 32 bytes of a record with its stamp (R465). -/
def tokenBytes (r : TokenRec) (stamp : Nat) : List Byte :=
  toBytes 4 r.request ++ toBytes 4 (r.token.getD 0xFFFFFFFF) ++ toBytes 4 r.position ++
    [byte r.reason, byte r.index, byte (r.flags + if r.encoder.isSome then 4 else 0), 0] ++
    f32Bytes r.novelty ++ toBytes 8 r.detail ++ [0, 0, 0, byte stamp]

/-- Bytes written where an address field of a request names (R461): false when they cannot be. -/
def State.putField (s : State) (field : Nat) (bytes : List Byte) : State × Bool :=
  if bit field 63 then s.hostWrite (field % 2 ^ 63) bytes
  else
    match s.target field bytes.length with
    | .here a => (s.store quiet a bytes, true)
    | _ => (s, false)

/-- Where record i of the token ring lies (R466). -/
def ServeRegs.tokAddress (r : ServeRegs) (i : Nat) : Nat := r.tokBase.toNat + 32 * (i % r.tokSize)

/-- A token signal (R466): at most one an interval; a record written within an interval is signalled at its end. -/
def State.signalToken (s : State) : State :=
  let quiet := (s.runtime.lastSignal.map fun t => decide (t + 150 * s.led 0x6400 0x11 ≤ s.power.uclk)).getD true
  if quiet then (s.withRuntime fun r => { r with lastSignal := some s.power.uclk, signalDue := false }).msix 1
  else s.withRuntime fun r => { r with signalDue := true }

/-- The token ring can take a record: it is enabled, has a free slot, and can be written (R458, R468). -/
def State.tokenSlot (s : State) : Bool :=
  let r := s.serve
  r.enable && decide ((r.tokTail - r.tokHead).toNat < r.tokSize) &&
    (if r.tokInHost then s.pcie.up && decide (r.tokAddress r.tokTail.toNat + 32 ≤ 2 ^ 47)
     else match s.target (r.tokAddress r.tokTail.toNat) 32 with
      | .here _ => true
      | _ => false)

/-- One record written to the ring (R465, R466): the encoder output before it (R462), the record in one write, TOK_TAIL, the
counters of R480, and the signal. -/
def State.writeToken (s : State) (t : TokenRec) : State × Bool :=
  let e := match t.encoder with
    | some (field, bytes) => s.putField field bytes
    | none => (s, true)
  if e.2 then
    let r := e.1.serve
    let i := r.tokTail.toNat
    let field := r.tokAddress i + if r.tokInHost then 2 ^ 63 else 0
    let s := (e.1.putField field (tokenBytes t ((i / r.tokSize + 1) % 256))).1
    let s := s.withServe fun r => { r with tokTail := r.tokTail + 1 }
    let s := s.bump 0x6400 0x22 0 t.token.isSome.toNat
    let s := s.bump 0x6400 0x25 0 (bits t.flags 1 1)
    let s := s.bump 0x6400 0x24 0 (t.reason == stopAbortRemote || t.reason == stopAbortFault).toNat
    (s.signalToken, true)
  else (e.1, false)

/-- Records written in order while the ring takes them (R468); `fuel` is the number held. -/
def State.flushTokens : Nat → State → State
  | 0, s => s
  | fuel + 1, s =>
    match s.runtime.held with
    | [] => s
    | t :: rest =>
      if s.tokenSlot then
        let w := s.writeToken t
        if w.2 then State.flushTokens fuel (w.1.withRuntime fun r => { r with held := rest }) else w.1
      else s

/-- Every record that the ring takes now is written. -/
def State.flushHeld (s : State) : State := State.flushTokens s.runtime.held.length s

/-- A record is produced: it goes behind those held, and no record passes another (R22, R468). -/
def State.deliverToken (s : State) (t : TokenRec) : State :=
  (s.withRuntime fun r => { r with held := r.held ++ [t] }).flushHeld

/-- A record of a request without a token; it reports no novelty (DESIGN CHOICE, log entry 151). -/
def plainRecord (id position reason detail : Nat) (encoder : Option (Nat × List Byte) := none) : TokenRec :=
  ⟨id, none, position, reason, 0, 1, 0, detail, encoder⟩

/-- HELD_TOKEN_WRITE (R468). -/
def execHeldTokenWrite (s : State) : Host.Outcome State Fault Refusal := .next (if s.runtimeRuns then s.flushHeld else s)

/-- TOKEN_INTERRUPT_INTERVAL (R466): the end of the interval after a signal. -/
def execTokenInterruptInterval (s : State) : Host.Outcome State Fault Refusal :=
  .next (if s.runtimeRuns && s.runtime.signalDue then
      (s.withRuntime fun r => { r with lastSignal := some s.power.uclk, signalDue := false }).msix 1
    else s)

/-! ### Intake -/

/-- A field of a request record. -/
abbrev reqField (r : List Byte) (a n : Nat) : Nat := imageNat r a n

/-- n bytes at an address field of a request can be reached (R134, R461, R464 code 9). -/
def State.fieldOk (s : State) (field n : Nat) : Bool :=
  if bit field 63 then decide (field % 2 ^ 63 + n ≤ 2 ^ 47)
  else match s.target field n with
    | .here _ => true
    | _ => false

/-- Bytes read at an address field: of host memory, the next answer of the host (R549). `none` when they do not come. -/
def State.readField (s : State) (hw : Hw) (field n : Nat) (replies : List HostReply) :
    State × Option (List Byte) × List HostReply :=
  if bit field 63 then
    match (if s.pcie.up then replies.headD .failed else .failed) with
    | .data l => (s, some (padTo 0 n l), replies.tail)
    | .failed => (s.hostFailure, none, replies.tail)
    | .outstanding => (s, none, replies.tail)
  else
    match s.target field n with
    | .here a =>
      let r := s.load hw a n
      (r.1, r.2, replies)
    | _ => (s, none, replies)

/-- Where record i of the request ring lies, as an address field. -/
def ServeRegs.reqAddress (r : ServeRegs) (i : Nat) : Nat :=
  r.reqBase.toNat + 128 * (i % r.reqSize) + if r.reqInHost then 2 ^ 63 else 0

/-- The request at REQ_HEAD (R459): read only in IN_SERVICE, while no drain is under way. -/
def State.nextRecordOf (s : State) (hw : Hw) : State × Option (List Byte) × List HostReply :=
  if s.runtimeRuns && s.life.state == .inService && s.life.drain.isNone && s.serve.enable &&
      s.serve.reqHead != s.serve.reqTail then
    let field := s.serve.reqAddress s.serve.reqHead.toNat
    if s.fieldOk field 128 then s.readField hw field 128 hw.host else (s, none, hw.host)
  else (s, none, hw.host)

/-- A record was copied (R459): REQ_HEAD passes it. -/
def State.takeRecord (s : State) : State :=
  (s.withServe fun r => { r with reqHead := r.reqHead + 1 }).bump 0x6400 0x20 0 1

/-- A list of U32. -/
def wordsOf (l : List Byte) : List Nat := (chunks 4 l).map ofBytes

/-- Bits of the flags word (R461). -/
def flagShare : Nat := 0
def flagImage : Nat := 1
def flagEncoded : Nat := 2
def flagReturn : Nat := 3
def flagStats : Nat := 4
def flagPrefilled : Nat := 5

/-- The checks of R464 up to BAD_LENGTH that need no table: the first code, or 0. -/
def State.rejectEarly (s : State) (r : List Byte) (m : Option Model) : Nat :=
  let flags := reqField r 6 2
  let image := bit flags flagImage
  let encoded := bit flags flagEncoded
  let n := reqField r 12 4
  if !between 1 (reqField r 4 1) 2 || 64 ≤ flags || reqField r 71 1 != 0 || !zeroAt r 96 32 then 1
  else if s.liveRequest (reqField r 0 4) then 2
  else
    match m with
    | none => 3
    | some m =>
      if m.variants < reqField r 5 1 then 4
      else if (image && encoded) || (bit flags flagPrefilled && (image || encoded)) ||
          ((image || encoded) && m.imageTokens == 0) then 5
      else if !between 1 n 65536 || decide (65536 < n + if image || encoded then m.imageTokens else 0) ||
          decide (65536 < reqField r 88 4) || decide (65536 < reqField r 92 4) || decide (8 < reqField r 70 1) then 6
      else 0

/-- Tokens of one entry of a stop table (R461). -/
def stopTokens (e : List Byte) : List Nat := (wordsOf (e.drop 8)).take (reqField e 0 2)

/-- What a request record asks for, by the model it names: the address fields it needs and their lengths (R461). -/
def State.neededFields (s : State) (r : List Byte) (m : Model) : List (Nat × Nat) :=
  let flags := reqField r 6 2
  let enc := 2 * m.imageTokens * m.width
  let img := bit flags flagImage || bit flags flagEncoded
  [(reqField r 16 8, 4 * reqField r 12 4)] ++
    (if bit flags flagImage then [(reqField r 24 8, m.imageBytes)] else []) ++
    (if bit flags flagEncoded then [(reqField r 24 8, enc)] else []) ++
    (if bit flags flagReturn && img then [(reqField r 32 8, enc)] else []) ++
    (if bit flags flagPrefilled then
      [(reqField r 40 8, ((s.pool m.pool).map fun d => d.layers * reqField r 12 4 * d.row).getD 1)] else []) ++
    (if reqField r 70 1 = 0 then [] else [(reqField r 80 8, 72 * reqField r 70 1)])

/-- A request ends at intake with one LAST record (R464, R473). -/
def State.endIntake (s : State) (id position reason detail : Nat) : State :=
  s.deliverToken (plainRecord id position reason detail)

/-- A rejection (R464). -/
def State.rejectRequest (s : State) (r : List Byte) (position code : Nat) : State :=
  (s.bump 0x6400 0x21 0 1).endIntake (reqField r 0 4) position stopRejected code

/-- What was read for a request: its prompt, stop table, encoder input or rows. -/
structure RequestData where
  prompt : List Byte
  stops : List Byte
  encoded : List Byte
  rows : List Byte

/-- Everything that the checks and the admission need is read, in the order of the record's fields; `none` where something
does not come. -/
def State.readRequest (s : State) (hw : Hw) (r : List Byte) (m : Model) (replies : List HostReply) :
    State × Option RequestData :=
  let flags := reqField r 6 2
  let need (b : Bool) (s : State) (field n : Nat) (p : List HostReply) : State × Option (List Byte) × List HostReply :=
    if b && s.fieldOk field n then s.readField hw field n p else (s, some [], p)
  let a := need true s (reqField r 16 8) (4 * reqField r 12 4) replies
  let b := need (bit flags flagEncoded) a.1 (reqField r 24 8) (2 * m.imageTokens * m.width) a.2.2
  let c := need (bit flags flagPrefilled) b.1 (reqField r 40 8)
    (((s.pool m.pool).map fun d => d.layers * reqField r 12 4 * d.row).getD 0) b.2.2
  let d := need (reqField r 70 1 != 0) c.1 (reqField r 80 8) (72 * reqField r 70 1) c.2.2
  match a.2.1, b.2.1, c.2.1, d.2.1 with
  | some p, some e, some w, some t => (d.1, some ⟨p, t, e, w⟩)
  | _, _, _, _ => (d.1, none)

/-- The checks of R464 from the stop lengths on, on what was read: the first code, or 0. -/
def State.rejectLate (s : State) (r : List Byte) (m : Model) (x : RequestData) : Nat :=
  let stops := chunks 72 x.stops
  if stops.any fun e => !between 1 (reqField e 0 2) 16 then 6
  else if (wordsOf x.prompt ++ stops.flatMap stopTokens).any fun t => decide (m.vocabulary ≤ t) then 7
  else if !settingsOk (rec32 r 56) (rec32 r 60) (rec32 r 64) (reqField r 68 2) then 8
  else if (s.neededFields r m).any fun f => !s.fieldOk f.1 f.2 then 9
  else 0

/-- A GENERATE request as the runtime keeps it. -/
def requestOf (r : List Byte) (m : Model) (x : RequestData) : ServeRequest :=
  let flags := reqField r 6 2
  { id := reqField r 0 4, variant := reqField r 5 1, flags := flags, model := m, prompt := wordsOf x.prompt
    seed := rec64 r 48, temperature := rec32 r 56, topP := rec32 r 60, penalty := rec32 r 64, topK := reqField r 68 2
    stops := (chunks 72 x.stops).map stopTokens, maxNew := reqField r 72 4, window := reqField r 88 4
    attendFrom := reqField r 92 4
    output := if bit flags flagReturn && (bit flags flagImage || bit flags flagEncoded) then some (reqField r 32 8) else none
    encoded := x.encoded, rows := x.rows }

/-- Encoder output that can be written with the request's first record (R462): stored output at once; what the Reed encoder makes of
an image comes with the prefill, and a request that ends before has none (log entry 150). -/
def ServeRequest.stored (r : ServeRequest) : Option (Nat × List Byte) :=
  if bit r.flags flagEncoded then r.output.map fun field => (field, r.encoded) else none

/-- The prompt length n' of R462. -/
def ServeRequest.promptLength (r : ServeRequest) : Nat :=
  r.prompt.length + if bit r.flags flagImage || bit r.flags flagEncoded then r.model.imageTokens else 0

/-- A GENERATE record that was copied is checked and taken into the intake, or ends at once (R309, R462, R464). -/
def State.takeGenerate (s : State) (hw : Hw) (r : List Byte) (replies : List HostReply) : State :=
  let m := s.runtime.models.find? fun m => m.tag == reqField r 8 4
  let flags := reqField r 6 2
  let position := reqField r 12 4 +
    if bit flags flagImage || bit flags flagEncoded then (m.map Model.imageTokens).getD 0 else 0
  let c := s.rejectEarly r m
  match m with
  | none => s.takeRecord.rejectRequest r position c
  | some m =>
    if c ≠ 0 then s.takeRecord.rejectRequest r position c
    else
      let x := s.readRequest hw r m replies
      match x.2 with
      | none => x.1
      | some d =>
        let s := x.1.takeRecord
        let c := s.rejectLate r m d
        let q := requestOf r m d
        if c ≠ 0 then s.rejectRequest r position c
        else if q.promptLength = 65536 then s.deliverToken (plainRecord q.id 65536 stopLimit 0 q.stored)
        else (s.withRuntime fun t => { t with intake := t.intake ++ [.request q] }).onTree State.evictShort

/-- GENERATE (R459, R464): a record that cannot be read yet stays unread. -/
def execGenerate (hw : Hw) (s : State) : Host.Outcome State Fault Refusal :=
  let x := s.nextRecordOf hw
  .next (match x.2.1 with
    | none => x.1
    | some r => if reqField r 4 1 = 2 then s else x.1.takeGenerate hw r x.2.2)

/-- CANCEL (R464, R474): the record is read, and takes effect at the next assembly. -/
def execCancel (hw : Hw) (s : State) : Host.Outcome State Fault Refusal :=
  let x := s.nextRecordOf hw
  .next (match x.2.1 with
    | none => x.1
    | some r =>
      if reqField r 4 1 = 2 then
        x.1.takeRecord.withRuntime fun t => { t with intake := t.intake ++ [.cancel (reqField r 76 4)] }
      else s)

/-! ### The runtime fails -/

/-- RUNTIME_STATUS reads FAILED and a class D cause is raised (R453, R454, R677, R735). -/
def State.runtimeFails (s : State) (error : Half) : State :=
  let s := s.withServe fun r => { r with status := 2, error := error }
  s.classD haltRuntime 0 error.toNat (toBytes 2 error.toNat ++ [0, 0] ++ toBytes 4 s.serve.heartbeat.toNat)

/-- RUNTIME_FAILED: the runtime writes FAILED. -/
def execRuntimeFailed (error : Half) (s : State) : Host.Outcome State Fault Refusal :=
  .next (if s.frontRuns then s.runtimeFails error else s)

/-- RUNTIME_WATCHDOG_EXPIRY: HEARTBEAT has not changed for the watchdog period (R454); the status is what it was. -/
def execRuntimeWatchdogExpiry (s : State) : Host.Outcome State Fault Refusal :=
  .next (if s.frontRuns && s.serve.status == 1 then
      s.classD haltRuntime 0 s.serve.error.toNat
        (toBytes 2 s.serve.error.toNat ++ [0, 0] ++ toBytes 4 s.serve.heartbeat.toNat)
    else s)

end Sys2Proof.Machine
end

