-- ==== Sys2Proof/Machine/Assembly.lean ====
section
/-! DEFINITION. Machine/Assembly.lean: the assembly of steps (R330, R347 to R349), sampling and the ends of sequences (R469
to R475), and the frames lent to peers (R476). -/

namespace Sys2Proof.Machine

/-! ### Sequences -/

/-- A sequence replaced. -/
def State.setSequence (s : State) (x : Sequence) : State :=
  s.withRuntime fun r => { r with sequences := r.sequences.map fun y => if y.id = x.id then x else y }

/-- A sequence by its id. -/
def State.sequence? (s : State) (id : Nat) : Option Sequence := s.runtime.sequences.find? fun x => x.id == id

/-- A sequence is in a step (R18). -/
def State.inStep (s : State) (id : Nat) : Bool := s.runtime.steps.any fun t => t.lanes.any fun l => l.2 == id

/-- A record of a request is held (R468). -/
def State.holdsRecord (s : State) (request : Nat) : Bool := s.runtime.held.any fun t => t.request == request

/-- The position of the token that the sequence's next step samples (R336, R345); the step's query is one below it. A step that is
run again for a lost one has the same position (R27). -/
def Sequence.position (x : Sequence) : Nat := x.request.promptLength + x.generated.length

/-- The root record of a request (R324). -/
def State.recordOfRequest (s : State) (r : ServeRequest) : List Byte :=
  rootRecordOf r.model.tag r.variant r.model.pool (((s.pool r.model.pool).map Pool.size).getD 0)

/-- The sequence ends with a LAST record (R473). -/
def State.endSequence (s : State) (x : Sequence) (rec : TokenRec) : State :=
  ((s.setSequence { x with ended := true }).deliverToken rec).countLive

/-- A LAST record without a token. -/
def Sequence.lastRecord (x : Sequence) (reason detail : Nat) : TokenRec :=
  plainRecord x.request.id x.position reason detail x.request.stored

/-! ### Page lists -/

/-- A number in the page-list header of a sequence (R285). -/
def State.listNat (s : State) (x : Sequence) (a n : Nat) : Nat := s.memNat (x.place.list + a) n

/-- The reserved page of a sequence (R285, R295). -/
def State.reservedPage (s : State) (x : Sequence) : Option Nat :=
  let pn := s.listNat x 8 4
  if pn = noPage then none else some pn

/-- The entries of a page list that name a page, in order. -/
def State.listEntries (s : State) (x : Sequence) : List Nat :=
  ((wordsOf (s.memRead (x.place.list + 64) (4 * s.listNat x 12 2)))).filter fun pn => pn != noPage

/-- The device whose loss REMOTE_GONE records (R287). -/
def State.goneDevice (s : State) (x : Sequence) : Option Nat :=
  let st := s.listNat x 14 2
  if bit st 0 then some (bits st 1 3) else none

/-- The runtime writes the reserved page of a sequence (R286, R295, R318). -/
def State.reservePage (s : State) (x : Sequence) (pn : Nat) : State := s.store quiet (x.place.list + 8) (toBytes 4 pn)

/-- Every page that a sequence's list names, its reserved page among them. -/
def State.pagesOf (s : State) (x : Sequence) : List Nat := s.listEntries x ++ (s.reservedPage x).toList

/-- Entries of a page list at most (R285). -/
def Pool.capacity (d : Pool) : Nat := 65536 / d.size

/-- The bytes of a page list as the runtime makes it at admission (R285, R463). -/
def State.listBytes (s : State) (d : Pool) (r : ServeRequest) (y : SequencePlace) (id length : Nat) (reserved : Nat)
    (entries : List Nat) : List Byte :=
  toBytes 4 length ++ toBytes 2 id ++ [byte r.model.pool, byte y.home] ++ toBytes 4 reserved ++ toBytes 2 d.capacity ++ [0, 0] ++
    toBytes 4 r.window ++ toBytes 4 r.attendFrom ++ toBytes 8 (if bit r.flags flagStats then s.global y.stats else 0) ++
    toBytes 8 (s.global y.table) ++ List.replicate 24 0 ++ (padTo noPage d.capacity entries).flatMap (toBytes 4)

/-- The memory that the structures of a sequence take: its list, its record table and its row statistics. -/
def SequencePlace.spans (y : SequencePlace) (d : Pool) (stats : Bool) : List (Nat × Nat) :=
  [(y.list, 64 + 4 * d.capacity), (y.table, 16 * y.records.length)] ++
    if stats then [(y.stats, d.layers * d.statBytes)] else []

/-- The memory that the runtime's structures take: its image, the tree, and what its sequences have. -/
def State.runtimeSpans (s : State) : List (Nat × Nat) :=
  (2 ^ 25, 2 ^ 24) :: TreePlace.spans s.tree.place ++ s.runtime.sequences.flatMap fun x =>
    ((s.pool x.request.model.pool).map fun d => SequencePlace.spans x.place d (bit x.request.flags flagStats)).getD []

/-- A place that the runtime may give a sequence (R285, R286, R300, R308, R451): in its region, apart from every other, with the home
cell in the pool's mask and whole record sets. -/
def State.placeFits (s : State) (d : Pool) (y : SequencePlace) (stats : Bool) : Bool :=
  let spans := SequencePlace.spans y d stats
  bit d.mask y.home && (spans.all fun x => s.inRegion x.1 x.2) && apart (spans ++ s.runtimeSpans) && y.stats % 128 == 0 &&
    y.records != [] && y.records.length % max d.queryHeads 1 == 0

/-! ### Release -/

/-- One page of a released sequence: a tree page loses a reference, a private page its frame (R341). -/
def State.releasePage (p : Nat) (s : State) (pn : Nat) : State :=
  match s.nodeOfPage p pn with
  | some i => s.releaseNode i
  | none => s.unmapPage p pn

/-- The copy hold of a sequence ends (R335). -/
def State.dropHold (s : State) (x : Sequence) : State :=
  match x.copy with
  | some h => (s.releaseNode h.node).setSequence { x with copy := none }
  | none => s

/-- A sequence is released (R341). -/
def State.releaseSequence (s : State) (x : Sequence) : State :=
  let s := (s.pagesOf x).reverse.foldl (State.releasePage x.request.model.pool) (s.dropHold x)
  s.withRuntime fun r => { r with sequences := r.sequences.filter fun y => y.id != x.id }

/-- Every ended sequence, in ascending id (R330). -/
def State.releaseEnded (s : State) : State :=
  (countFrom 0 4096).foldl (fun (s : State) i => match s.sequence? i with
    | some x => if x.ended then s.releaseSequence x else s
    | none => s) s

/-- What the runtime held on a peer is gone (R523, R691, R694): every sequence whose list names a page there ends with ABORT_REMOTE, at
once, or at the end of the step it is in (R475; DESIGN CHOICE, log entry 152). -/
def State.peerGone (s : State) (device : Nat) : State :=
  s.liveSequences.foldl (fun (s : State) x =>
    if (s.pagesOf x).all fun pn => pageDevice pn != device then s
    else if s.inStep x.id then s.markGone quiet (s.global x.place.list) device
    else s.endSequence x (x.lastRecord stopAbortRemote device)) s

/-! ### Cancels -/

/-- One CANCEL (R474, R482): a request that waits, or a sequence between steps, ends; a target that is not live is counted;
one that is in a step is kept for the next assembly. -/
def State.cancel (s : State) (id : Nat) : State × Bool :=
  let waiting := s.runtime.intake.findSome? fun i => match i with
    | .request r => if r.id = id then some r else none
    | .cancel _ => none
  match waiting with
  | some r =>
    ((s.withRuntime fun t => { t with intake := t.intake.filter fun i => match i with
        | .request q => q.id != id
        | .cancel _ => true }).deliverToken (plainRecord id r.promptLength stopCancelled 0 r.stored), true)
  | none =>
    match s.liveSequences.find? fun x => x.request.id == id with
    | some x => if s.inStep x.id then (s, false) else (s.endSequence x (x.lastRecord stopCancelled 0), true)
    | none => (s.bump 0x6400 0x23 0 1, true)

/-- Every CANCEL that was read, in the order read. -/
def State.cancels (s : State) : State :=
  (s.runtime.intake.filterMap fun i => match i with
    | .cancel id => some id
    | .request _ => none).foldl (fun (s : State) id =>
      let r := s.cancel id
      if r.2 then r.1.withRuntime fun t => { t with intake := t.intake.erase (.cancel id) } else r.1) s

/-! ### Pages for sequences -/

/-- Pages of peers' leases for a pool that no sequence names (R476). -/
def State.leasedPages (s : State) (p : Nat) (lease : List (Byte × Word)) : List Nat :=
  if s.led 0x1100 0x11 = 1 then
    let named := (s.runtime.sequences.filter fun x => x.request.model.pool == p).flatMap s.pagesOf
    (((lease.filter fun l => l.1.toNat == p).map fun l => l.2.toNat).filter fun pn =>
      !s.ownPage pn && decide (pn ∉ named)).eraseDups
  else []

/-- A next page for a sequence (R347, R348, R476): of the planned cell, else of a peer's lease, else after an eviction. `taken` are
pages taken before it. -/
def State.takePage (s : State) (p : Nat) (d : Pool) (lease : List (Byte × Word)) (taken : List Nat) : State × Option Nat :=
  let c := s.plannedCell p d
  if 0 < s.freeFrames p d c then s.mapPage p d c
  else
    match (s.leasedPages p lease).find? fun pn => decide (pn ∉ taken) with
    | some pn => (s, some pn)
    | none =>
      let s := s.evictShort
      s.mapPage p d (s.plannedCell p d)

/-- n next pages, as many as there are. -/
def State.takePages (p : Nat) (d : Pool) (lease : List (Byte × Word)) : Nat → State → List Nat → State × List Nat
  | 0, s, l => (s, l)
  | n + 1, s, l =>
    match s.takePage p d lease l with
    | (s, some pn) => State.takePages p d lease n s (l ++ [pn])
    | (s, none) => (s, l)

/-! ### Admission -/

/-- The slots of the page of entry e that hold positions from u on, below n: the first slot and how many. -/
def slotsBetween (size e u n : Nat) : Nat × Nat :=
  let lo := max u (e * size)
  (lo - e * size, min n ((e + 1) * size) - lo)

/-- Rows of PREFILLED written to the private page of entry e (R297, R461): those of positions u to n − 1; a page on a peer takes them
by page writes. -/
def State.putRows (s : State) (p : Nat) (d : Pool) (list n u : Nat) (rows : List Byte) (pn e : Nat) : State :=
  let sl := slotsBetween d.size e u n
  (countFrom 0 d.layers).foldl (fun (s : State) l =>
    let row (t : Nat) : Nat := (l * n + e * d.size + t) * d.row
    if s.ownPage pn then
      match s.frameOf p pn with
      | some f => s.store quiet (d.slotAddress (pageCell pn) l f sl.1) ((rows.drop (row sl.1)).take (sl.2 * d.row))
      | none => s
    else
      (slotParts d sl.1 sl.2).foldl (fun (s : State) w =>
        let t := s.request (s.portTo (pageDevice pn))
          (pageRequest 5 3 p l pn d w.1 w.2 ++ (rows.drop (row w.1)).take (w.2 * d.row)) 5 (w.2 * d.row)
          (.rows (BitVec.ofNat 64 (s.global list)) (BitVec.ofNat 32 pn))
        if t.2 then t.1 else t.1.markGone quiet (s.global list) (pageDevice pn)) s) s

/-- The lookup of a request that shares prefixes, while the tree is enabled (R331, R351). -/
def State.lookupRequest (s : State) (d : Pool) (r : ServeRequest) : State × Option Found :=
  if bit r.flags flagShare && s.led 0x5400 0x01 == 1 then s.lookup r.model.pool d.size (s.recordOfRequest r) r.prompt
  else (s, none)

/-- Pages that this device and the leases can still supply for a pool (R349). -/
def State.suppliable (s : State) (p : Nat) (d : Pool) (lease : List (Byte × Word)) : Nat :=
  d.cells.foldl (fun n c => n + s.freeFrames p d c) 0 + (s.leasedPages p lease).length

/-- The copy hold of an admission (R335, steps 1 and 4): taken when the private page is a frame of this device. -/
def State.takeHold (s : State) (source : Option (Nat × Nat)) (dst : Nat) : State × Option CopyHold :=
  match source with
  | some (i, c) =>
    if s.ownPage dst then
      let s := (s.touch i).bump 0x5400 0x25 0 1
      (s, some ⟨i, ((s.treeNode i).map TreeNode.page).getD noPage, c⟩)
    else (s.refNode i false, none)
  | none => (s, none)

/-- A sequence is admitted with its pages (R285, R297, R335, R336): the runtime writes its page list and its record table, and the rows
that a request brings. -/
def State.admitWith (s : State) (d : Pool) (r : ServeRequest) (id : Nat) (y : SequencePlace) (shared pages : List Nat)
    (reserved : Nat) (source : Option (Nat × Nat)) : State :=
  let p := r.model.pool
  let h := s.takeHold source (pages.headD noPage)
  let u := shared.length * d.size + (h.2.map CopyHold.slots).getD 0
  let brought := bit r.flags flagPrefilled
  let covered := if brought then r.promptLength else u
  let s := h.1.store quiet y.list (h.1.listBytes d r y id covered reserved (shared ++ pages))
  let s := s.store quiet y.table (y.records.flatMap fun x => toBytes 8 x.1.toNat ++ toBytes 8 x.2.toNat)
  let s := if brought then
      (pages.zip (countFrom shared.length pages.length)).foldl
        (fun (s : State) x => s.putRows p d y.list r.prompt.length u r.rows x.1 x.2) s
    else s
  let x : Sequence := ⟨id, r, y, covered, h.2, [], false, false, s.tree.assembly, false, false⟩
  (s.withRuntime fun t => { t with sequences := t.sequences ++ [x] }).countLive

/-- One request admitted (R331 to R336, R349), or none when its pool cannot supply the pages, or the runtime has no place for it. -/
def State.admitOne (s : State) (d : Pool) (r : ServeRequest) (id : Nat) (plan : AssemblyPlan) : Option State :=
  let p := r.model.pool
  match plan.places.find? fun y => y.request.toNat == r.id with
  | none => none
  | some y =>
    let f := s.lookupRequest d r
    let shared := (f.2.map Found.pages).getD []
    let source := f.2.bind fun x => f.1.copySource x d.size r.prompt
    let own := (r.promptLength + d.size - 1) / d.size - shared.length
    let held := match source with
      | some (i, _) => f.1.refNode i true
      | none => f.1
    let ready := if held.suppliable p d plan.lease < own + 1 then held.evictShort else held
    if ready.suppliable p d plan.lease < own + 1 ∨ !ready.placeFits d y (bit r.flags flagStats) then none
    else
      let t := State.takePages p d plan.lease (own + 1) ready []
      if t.2.length < own + 1 then none
      else some (t.1.admitWith d r id y shared (t.2.take own) (t.2.getLastD noPage) source)

/-- Requests that were read are admitted in that order (R25, R349, R481); `blocked` are the pools whose turn is held up. -/
def State.admitAll (plan : AssemblyPlan) : List ServeRequest → List Nat → State → State
  | [], _, s => s
  | r :: t, blocked, s =>
    let p := r.model.pool
    let id := (countFrom 0 4096).find? fun i => (s.sequence? i).isNone
    match s.pool p, id with
    | some d, some i =>
      if blocked.contains p then State.admitAll plan t blocked s
      else
        match s.admitOne d r i plan with
        | some s => State.admitAll plan t blocked
            (s.withRuntime fun x => { x with intake := x.intake.erase (.request r) })
        | none => State.admitAll plan t (p :: blocked) s
    | _, _ => State.admitAll plan t (p :: blocked) s

/-- Insertions for the sequences whose prefill has completed, in ascending id (R330, R337, R338). -/
def State.insertions (s : State) : State :=
  (countFrom 0 4096).foldl (fun (s : State) i => match s.sequence? i with
    | some x =>
      if x.prefilled && !x.inserted && !x.ended then
        let r := x.request
        let s := s.setSequence { x with inserted := true }
        match s.pool r.model.pool with
        | some d =>
          if bit r.flags flagShare && !bit r.flags flagPrefilled && s.led 0x5400 0x01 == 1 then
            s.insertPages r.model.pool d.size (s.recordOfRequest r) r.prompt (s.listEntries x)
          else s
        | none => s
      else s
    | none => s) s

/-- The tree operations of an assembly, in their order (R330). -/
def State.treeOperations (s : State) (plan : AssemblyPlan) : State :=
  let s := s.releaseEnded.evictShort
  let s := State.admitAll plan (s.runtime.intake.filterMap fun i => match i with
    | .request r => some r
    | .cancel _ => none) [] s
  s.insertions

/-! ### Posting a step -/

/-- A query table as the runtime writes it (R300): the local address, and its entries. -/
structure QueryTable where
  addr : Nat
  entries : List (Sequence × Nat × Nat × Nat)

/-- The bytes of a query table (R300): page list, position, lane and record set of each entry. -/
def State.tableBytes (s : State) (t : QueryTable) : List Byte :=
  t.entries.flatMap fun e =>
    toBytes 8 (s.global e.1.place.list) ++ toBytes 4 e.2.1 ++ toBytes 2 e.2.2.1 ++ toBytes 2 e.2.2.2

/-- The nodes that a planned bake issues (R421, R423), with their edges. -/
def State.bakeNodes (s : State) (b : PlannedBake) : List (List Byte) × List (Nat × Nat) :=
  match s.recipe b.recipe.toNat with
  | some r => ((recipePatches r.image).foldl (applyPatch (b.params.map BitVec.toNat)) (recipeNodes r.image), recipeEdges r.image)
  | none => ([], [])

/-- The nodes that edges put after a node (R420). -/
def followers (edges : List (Nat × Nat)) (n a : Nat) : List Nat :=
  (countFrom (a + 1) (n - a)).foldl (fun l b => if edges.any fun e => e.2 == b && decide (e.1 ∈ l) then b :: l else l) [a]

/-- In a bake, every attention launch comes after every append of its layer (R19). -/
def appendsFirst (nodes : List (List Byte)) (edges : List (Nat × Nat)) : Bool :=
  let indexed := nodes.zip (countFrom 0 nodes.length)
  indexed.all fun a => recNat a.1 0 1 != 0x30 || indexed.all fun b =>
    recNat b.1 0 1 != 0x31 || recNat a.1 10 2 != recNat b.1 10 2 || (followers edges nodes.length a.2).contains b.2

/-- The attention launches of a step are one for each table and layer (R21, R347). -/
def State.launchesOnce (s : State) (d : Pool) (p : Nat) (tables : List QueryTable) (nodes : List (List Byte)) : Bool :=
  let l := (nodes.filter fun r => recNat r 0 1 == 0x31).map readAttend
  l.length == d.layers * tables.length && (countFrom 0 d.layers).all fun layer => tables.all fun t => l.any fun o =>
    o.pool.toNat == p && o.layer.toNat == layer && o.table.toNat == s.global t.addr && o.queries.toNat == t.entries.length

/-- The runtime can post work on a queue (R403, R404, R411): a kernel queue with a ring on this device. -/
def State.postable (s : State) (q : QueueId) (records : Nat) : Bool :=
  let x := s.queue q
  isKernel q && x.enable && !x.producerEnqueue && !x.ringHost && !s.parked q && x.state != .faulted && x.state != .resetting &&
    (s.cacheableAt x.ringBase.toNat (64 * x.ringSize)).isSome && decide ((x.tail - x.head).toNat + records ≤ x.ringSize)

/-- A step that the runtime may post (R19, R21, R347, R415): its recipes are loaded and take its parameters, what it writes lies in the
runtime region, its launches are one for each table and layer, and its counter is neither granted nor another step's. -/
def State.planFits (s : State) (plan : StepPlan) (d : Pool) (p : Nat) (tables : List QueryTable) : Bool :=
  let bakes := plan.bakes.map s.bakeNodes
  let spans := (tables.map fun t => (t.addr, 16 * t.entries.length)) ++ plan.bakes.map fun b => (b.block, 8 * b.params.length)
  (plan.bakes.all fun b => (s.recipeFault b.recipe.toNat b.params.length).isNone && b.block % 8 == 0) &&
    (spans.all fun x => s.inRegion x.1 x.2) && apart (spans ++ s.runtimeSpans) && plan.bakes != [] &&
    (bakes.all fun b => appendsFirst b.1 b.2) && s.launchesOnce d p tables (bakes.flatMap Prod.fst) &&
    !(s.counter plan.counter.toNat).err && !s.counterTaken plan.queue plan.counter.toNat 1 && s.runtime.steps.all fun t => t.counter != plan.counter.toNat

/-- The header of a record that the runtime posts: it advances the step's counter, or nothing. -/
def postHeader (cells : List Nat) (counter : Option (BitVec 12)) (irq : Bool) : Header :=
  ⟨false, irq, BitVec.ofNat 16 (cells.foldl (fun m c => m + 2 ^ c) 0), counter.isSome, counter.getD 0⟩

/-- The BAKE records of a step (R408): the last advances the counter and raises the interrupt. -/
def State.bakeRecords (s : State) (counter : BitVec 12) : List PlannedBake → List (List Byte)
  | [] => []
  | b :: t =>
    recordOf 0x05 (postHeader [] (if t.isEmpty then some counter else none) t.isEmpty)
      (bakeBody ⟨b.recipe, BitVec.ofNat 8 b.params.length, BitVec.ofNat 64 (s.global b.block)⟩) :: s.bakeRecords counter t

/-- Copies posted one behind the other (R335, R412): a WAIT for each keeps the next record until it has completed. -/
def orderedCopies (counter : BitVec 12) (base : Nat) : List (Nat × DmaOps) → List (List Byte)
  | [] => []
  | (c, o) :: t =>
    recordOf 0x10 (postHeader [c] (some counter) false) (dmaBody o) ::
      recordOf 0x01 (postHeader [] none false) (waitBody ⟨BitVec.ofNat 16 counter.toNat, 0, BitVec.ofNat 64 (base + 1)⟩) ::
      orderedCopies counter (base + 1) t

/-- A step is posted (R347): the tables and parameter blocks are written, then the records, and the doorbell is rung. -/
def State.post (s : State) (plan : StepPlan) (tables : List QueryTable) (records : List (List Byte)) : State :=
  let s := tables.foldl (fun (s : State) t => s.store quiet t.addr (s.tableBytes t)) s
  let s := plan.bakes.foldl (fun (s : State) b => s.store quiet b.block (b.params.flatMap fun v => toBytes 8 v.toNat)) s
  let x := s.queue plan.queue
  (s.putRecords quiet plan.queue x.tail.toNat records).ringDoorbell plan.queue (x.tail + BitVec.ofNat 32 records.length)

/-- A step is posted and in progress, with its lanes and sequences; none where it cannot be posted. -/
def State.runStep (s : State) (plan : StepPlan) (d : Pool) (p : Nat) (isPrefill : Bool) (tables : List QueryTable)
    (copies : List (Nat × DmaOps)) (lanes : List (Nat × Nat)) : Option State :=
  let base := (s.counter plan.counter.toNat).value.toNat
  let records := orderedCopies plan.counter base copies ++ s.bakeRecords plan.counter plan.bakes
  if s.planFits plan d p tables && s.postable plan.queue records.length then
    some ((s.post plan tables records).withRuntime fun r => { r with
      steps := r.steps ++ [⟨r.nextStep, isPrefill, lanes, plan.queue, plan.counter.toNat, base + copies.length + 1, none⟩]
      nextStep := r.nextStep + 1 })
  else none

/-! ### Prefill -/

/-- The pieces of a span of slots moved at once: first slot and count of each. -/
def piecesOf (slots count : Nat) : List (Nat × Nat) :=
  (countFrom 0 ((count + slots - 1) / max 1 slots)).map fun i => (i * slots, min slots (count - i * slots))

/-- The DMA copies of a partial page (R16, R335): slots 0 to c − 1 of the node's page into the private page, in every layer, within a
cell or by the buffer of the target's cell. -/
def State.copyCommands (s : State) (p : Nat) (d : Pool) (h : CopyHold) (dst slots staging : Nat) : List (Nat × DmaOps) :=
  match s.frameOf p h.page, s.frameOf p dst with
  | some f, some g =>
    let near := pageCell h.page
    let far := pageCell dst
    let buffer := BitVec.ofNat 64 staging
    (countFrom 0 d.layers).flatMap fun l => (piecesOf slots h.slots).flatMap fun w =>
      let n := BitVec.ofNat 32 (w.2 * d.row)
      let source := BitVec.ofNat 64 (s.global (d.slotAddress near l f w.1))
      let dest := BitVec.ofNat 64 (s.global (d.slotAddress far l g w.1))
      if near = far then [(near, ⟨0, 0, 1, n, source, dest, 0, 0, 0⟩)]
      else [(near, ⟨0, 3, 1, n, source, buffer, 0, 0, BitVec.ofNat 16 (2 ^ far)⟩), (far, ⟨1, 0, 1, n, buffer, dest, 0, 0, 0⟩)]
  | _, _ => []

/-- The positions that a prefill runs as queries (R336): those without a row, and n' − 1 always; in tables of at most 256, a lane and a
record set for each. -/
def Sequence.prefillTables (x : Sequence) (addrs : List Nat) : List QueryTable :=
  let n := x.request.promptLength
  let first := min x.covered (n - 1)
  (countFrom 0 ((n - first + 255) / 256)).map fun i =>
    ⟨addrs.getD i 0, (countFrom 0 (min 256 (n - first - 256 * i))).map fun j => (x, first + 256 * i + j, j, j)⟩

/-- The appends of a prefill cover the positions from u to n' − 1 once in each layer, in order, and nothing else (R336). -/
def State.appendsCover (s : State) (d : Pool) (x : Sequence) (nodes : List (List Byte)) : Bool :=
  let l := (nodes.filter fun r => recNat r 0 1 == 0x30).map readAppend
  (l.all fun o => o.list.toNat == s.global x.place.list && o.pool.toNat == x.request.model.pool && decide (o.layer.toNat < d.layers)) &&
    (countFrom 0 d.layers).all fun layer =>
      (l.filter fun o => o.layer.toNat == layer).foldl
        (fun (p : Option Nat) o => p.bind fun v => if o.position.toNat = v then some (v + o.count.toNat) else none) (some x.covered) ==
        some x.request.promptLength

/-- A sequence whose prompt is not yet computed goes into a prefill of its own, on lane 0 (R336, R356; DESIGN CHOICE, log entry 147); the
copy of its partial page goes before it. -/
def State.prefill (s : State) (plan : PrefillPlan) (d : Pool) (x : Sequence) : Option State :=
  let tables := x.prefillTables plan.step.tables
  let p := x.request.model.pool
  let copies := match x.copy with
    | some h => s.copyCommands p d h ((s.listEntries x).getD (x.covered / d.size) noPage) plan.slots plan.staging
    | none => []
  if s.appendsCover d x ((plan.step.bakes.map s.bakeNodes).flatMap Prod.fst) then
    s.runStep plan.step d p true tables copies [(0, x.id)]
  else none

/-- Every admitted sequence of a model whose prompt is not yet computed and for which the runtime has a plan. -/
def State.prefills (s : State) (tag : Nat) (d : Pool) (plans : List PrefillPlan) : State :=
  (s.liveSequences.filter fun x => !x.prefilled && x.request.model.tag == tag && !s.inStep x.id).foldl
    (fun (s : State) x => match plans.find? fun y => y.request.toNat == x.request.id with
      | some y => (s.prefill y d x).getD s
      | none => s) s

/-! ### The batch -/

/-- A sequence goes before another into the batch (R347): deferred at the last assembly, then by the assembly of its last
step, then by id. -/
def Sequence.before (a b : Sequence) : Bool :=
  if a.deferred != b.deferred then a.deferred
  else decide (a.lastStep < b.lastStep) || (a.lastStep == b.lastStep && decide (a.id < b.id))

/-- The page count of a query at q = L (R299, R345, R346). -/
def Sequence.pageCount (x : Sequence) (size : Nat) : Nat :=
  let q := x.position - 1
  let r := x.request
  let lo := if r.window = 0 then r.attendFrom else max r.attendFrom (q + 1 - r.window)
  if q < lo then 1 else q / size - lo / size + 1

/-- The bucket of a sequence (R345). -/
def Sequence.bucket (x : Sequence) (size : Nat) : Nat := (x.pageCount size).log2

/-- The order of lanes (R347): variant, bucket, sequence id. -/
def laneBefore (size : Nat) (a b : Sequence) : Bool :=
  let ka := (a.request.variant * 16 + a.bucket size) * 4096 + a.id
  let kb := (b.request.variant * 16 + b.bucket size) * 4096 + b.id
  decide (ka < kb)

/-- Candidates taken into the batch in order; one for which no reserved page can be had is deferred (R295, R347). -/
def State.fillBatch (d : Pool) (lease : List (Byte × Word)) (limit : Nat) :
    List Sequence → List Sequence → State → State × List Sequence
  | [], batch, s => (s, batch)
  | x :: t, batch, s =>
    if limit ≤ batch.length then (s, batch)
    else if (s.reservedPage x).isSome then State.fillBatch d lease limit t (batch ++ [x]) s
    else
      let r := s.takePage x.request.model.pool d lease []
      match r.2 with
      | some pn => State.fillBatch d lease limit t (batch ++ [x]) (r.1.reservePage x pn)
      | none => State.fillBatch d lease limit t batch ((r.1.setSequence { x with deferred := true }).bump 0x5400 0x28 0 1)

/-- The query tables of a decode step: one for each bucket that holds sequences (R347). -/
def bucketTables (size : Nat) (addrs : List Nat) (placed : List (Nat × Sequence)) : List QueryTable :=
  (countFrom 0 12).filterMap fun b =>
    let l := placed.filter fun x => x.2.bucket size == b
    if l = [] then none else some ⟨addrs.getD b 0, l.map fun x => (x.2, x.2.position - 1, x.1, 0)⟩

/-- The decode step of a model (R345 to R347): its batch, lanes and buckets, and its bakes. -/
def State.batch (s : State) (m : Model) (d : Pool) (lease : List (Byte × Word)) (plan : StepPlan) : State :=
  let cand := sortBefore Sequence.before (s.liveSequences.filter fun x =>
    x.request.model.tag == m.tag && x.prefilled && !s.inStep x.id && !s.holdsRecord x.request.id)
  let lanes := (countFrom 0 256).filter fun l => !s.laneGranted l
  let r := State.fillBatch d lease lanes.length cand [] s
  let placed := lanes.zip (sortBefore (laneBefore d.size) r.2)
  let posted := if r.2.isEmpty then none
    else r.1.runStep plan d m.pool false (bucketTables d.size plan.tables placed) [] (placed.map fun x => (x.1, x.2.id))
  match posted with
  | none => r.1
  | some s =>
    let s := r.2.foldl (fun (s : State) x => s.setSequence { x with deferred := false, lastStep := s.tree.assembly }) s
    (countFrom 0 12).foldl (fun (s : State) b =>
      s.setLed 0x5400 0x30 b (placed.filter fun x => x.2.bucket d.size == b).length) s

/-- The runtime assembles only in IN_SERVICE, while no drain is under way (R112, R113, R459). -/
def State.assembles (s : State) : Bool := s.runtimeRuns && s.life.state == .inService && s.life.drain.isNone

/-- One assembly of a model's next step (R330, R347). -/
def State.assemble (s : State) (model : Nat) (plan : AssemblyPlan) : State :=
  let s := (s.withTree fun t => { t with assembly := t.assembly + 1 }).cancels.treeOperations plan
  match s.runtime.models.find? fun m => m.tag == model with
  | some m =>
    match s.pool m.pool with
    | some d =>
      let s := s.prefills model d plan.prefills
      match plan.decode with
      | some y => s.batch m d plan.lease y
      | none => s
    | none => s
  | none => s

/-- ASSEMBLY of a model's next step. -/
def execAssembly (model : Word) (plan : AssemblyPlan) (s : State) : Host.Outcome State Fault Refusal :=
  .next (if s.assembles then s.onTree fun s => s.assemble model.toNat plan else s)

/-! ### Sampling -/

/-- The stop sequence that the generated tokens complete (R472). -/
def stopMatched (r : ServeRequest) (generated : List Nat) : Option Nat :=
  r.stops.findIdx? fun t => generated.drop (generated.length - t.length) == t && decide (t.length ≤ generated.length)

/-- The stop conditions of R472, in order: the reason and the index, or none. -/
def stopReason (r : ServeRequest) (q : Nat) (generated : List Nat) : Option (Nat × Nat) :=
  if q = 65535 then some (stopLimit, 0)
  else
    match stopMatched r generated with
    | some j => some (stopSequence, j)
    | none => if generated.length = r.maxNew then some (stopMaxTokens, 0) else none

/-- The logits of a span, as the last bake has left them (R20, R469). -/
def State.spanLogits (s : State) (p : LogitSpan) : List F32 :=
  match p.lane with
  | none => (wordsOf (s.bufRead p.cell p.first (4 * p.count))).map (BitVec.ofNat 32)
  | some l => (countFrom p.first p.count).map fun c => s.cells.acc.get 0 (p.cell.val * 2 ^ 17 + l.val * 512 + c)

/-- A span lies within its buffer or lane. -/
def LogitSpan.fits (p : LogitSpan) : Bool :=
  match p.lane with
  | none => decide (p.first + 4 * p.count ≤ bufBytes)
  | some _ => decide (p.first + p.count ≤ 512)

/-- The spans of a lane give one logit for each token of the vocabulary (R20). -/
def LaneResult.fits (y : LaneResult) (m : Model) : Bool :=
  y.logits.all LogitSpan.fits && (y.logits.map LogitSpan.count).sum == m.vocabulary

/-- The log-sum-exp of every query head of the last layer (R308, R467). -/
def State.lastLse (s : State) (x : Sequence) (d : Pool) : List Bf16 :=
  (chunks 2 (s.memRead (x.place.stats + (d.layers - 1) * d.statBytes) (2 * d.queryHeads))).map fun b => BitVec.ofNat 16 (ofBytes b)

/-- The novelty that a sequence's record reports (R467). -/
def State.novelty (s : State) (x : Sequence) : F32 :=
  match s.pool x.request.model.pool with
  | some d => if bit x.request.flags flagStats then noveltyOf (s.lastLse x d) else 0
  | none => 0

/-- Encoder output that goes with a sequence's first record (R462): stored output, or what the Reed encoder left. -/
def State.encoderOutput (s : State) (r : ServeRequest) (addr : Nat) : Option (Nat × List Byte) :=
  if bit r.flags flagImage then r.output.map fun field => (field, s.memRead addr (2 * r.model.imageTokens * r.model.width)) else r.stored

/-- A sequence whose token of this step is sampled: what it reports as it goes on, or as it ends. -/
def State.sampledToken (s : State) (x : Sequence) (encoder : Option (Nat × List Byte)) (q k nonfinite : Nat) : State :=
  let r := x.request
  let gen := x.generated ++ [k]
  let stats := bit r.flags flagStats
  let x := { x with generated := gen, request := { r with output := none } }
  let stop := stopReason r q gen
  let rec_ : TokenRec := ⟨r.id, some k, q, (stop.map Prod.fst).getD 0, (stop.map Prod.snd).getD 0,
    stop.isSome.toNat + nonfinite + stats.toNat * 8, s.novelty x, 0, encoder⟩
  if stop.isSome then s.endSequence x rec_ else (s.setSequence x).deliverToken rec_

/-- One lane's result (R467, R469, R472 to R475, R485): a sequence whose REMOTE_GONE is set ends with ABORT_REMOTE (R28, R287). A
prefill's copy has completed (R335). -/
def State.sampleLane (s : State) (x : Sequence) (y : LaneResult) : State :=
  let r := x.request
  let q := x.position
  let s := s.dropHold x
  let x := { x with copy := none, prefilled := true }
  let encoder := s.encoderOutput r y.encoder
  match s.goneDevice x with
  | some e => s.endSequence x (plainRecord r.id q stopAbortRemote e encoder)
  | none =>
    let logits := y.logits.flatMap s.spanLogits
    let nf := (logits.any nonFinite).toNat * 2
    match sampleToken logits q r.seed r.temperature r.topP r.penalty r.topK (r.prompt ++ x.generated) (Config.freeToken r.seed q) with
    | none => s.endSequence x { plainRecord r.id q stopNumeric 0 encoder with flags := 1 + nf }
    | some k => s.sampledToken x encoder q k nf

/-- Every lane of a step, in lane order: R22 orders the records of one sequence, and the model orders those of different sequences by
their lanes (DESIGN CHOICE, log entry 148). -/
def State.sampleLanes : List (Nat × Nat) → List LaneResult → State → State
  | l :: t, y :: u, s =>
    State.sampleLanes t u (match s.sequence? l.2 with
      | some x => if x.ended then s else s.sampleLane x y
      | none => s)
  | _, _, s => s

/-- The last bake of a step has completed (R415): its counter has reached the step's value. -/
def State.stepDone (s : State) (t : StepRun) : Bool :=
  t.lost.isNone && decide (t.target ≤ (s.counter t.counter).value.toNat) && !(s.counter t.counter).err

/-- The results of a step's lanes name a logit for every token. -/
def State.resultsFit (s : State) (t : StepRun) (l : List LaneResult) : Bool :=
  l.length == t.lanes.length && (t.lanes.zip l).all fun z =>
    ((s.sequence? z.1.2).map fun x => LaneResult.fits z.2 x.request.model).getD true

/-- The sequence whose own fault lost a step (R27, R475): the one that the record of a KV fault names (R312), else the one of the lane
that the runtime found. -/
def State.culprit (s : State) (t : StepRun) (record : List Byte) (lane : Option Nat) : Option Sequence :=
  let detail := imageNat record 16 8
  if imageNat record 0 1 = badKv ∧ bit detail 31 then
    if t.lanes.any fun p => p.2 == bits detail 4 12 then s.sequence? (bits detail 4 12) else none
  else lane.bind fun l => (t.lanes.find? fun p => p.1 == l).bind fun p => s.sequence? p.2

/-- A step lost to a guilty-queue reset (R27, R475): the sequence at fault ends, the others stand where they were. -/
def State.loseStep (s : State) (t : StepRun) (record : List Byte) (lane : Option Nat) : State :=
  match s.culprit t record lane with
  | some x => if x.ended then s else s.endSequence x (x.lastRecord stopAbortFault (imageNat record 0 8))
  | none => s

/-- SAMPLING at the end of a step (R20, R469): the step of that number ends, once its last bake has completed or its queue was
reset. -/
def execSampling (number : Nat) (result : StepEnd) (s : State) : Host.Outcome State Fault Refusal :=
  .next (if s.runtimeRuns then
      match s.runtime.steps.find? fun t => t.number == number with
      | none => s
      | some t =>
        let s' := s.withRuntime fun r => { r with steps := r.steps.filter fun u => u.number != number }
        match result, t.lost with
        | .sampled lanes, none =>
          if s.stepDone t && s.resultsFit t lanes then s'.onTree (State.sampleLanes t.lanes lanes) else s
        | .lost lane, some record => s'.loseStep t record lane
        | _, _ => s
    else s)

/-! ### Frames lent to peers -/

/-- Frames of one cell of one pool mapped for a peer (R476): their page numbers. -/
def State.lendFrames (p : Nat) (d : Pool) (c : Nat) : Nat → State → List Nat → State × List Nat
  | 0, s, l => (s, l)
  | n + 1, s, l =>
    match s.mapPage p d c with
    | (s, some pn) => State.lendFrames p d c n s (l ++ [pn])
    | (s, none) => (s, l)

/-- Every cell of every configured pool, for one peer. -/
def State.lendTo (s : State) (peer : Nat) : State × List Nat :=
  (countFrom 0 8).foldl (fun (r : State × List Nat) p => match r.1.pool p with
    | some d => d.cells.foldl (fun (r : State × List Nat) c =>
        let t := State.lendFrames p d c (r.1.led 0x6400 0x12 peer) r.1 []
        (t.1, r.2 ++ t.2)) r
    | none => r) (s, [])

/-- PEER_LEASE (R476): frames are mapped for each peer and their page numbers written to its lease list, at a local address of
its runtime region that the runtimes agree on. -/
def execPeerLease (list : DWord) (s : State) : Host.Outcome State Fault Refusal :=
  .next (if s.runtimeRuns && s.life.state == .ready && s.led 0x1100 0x11 == 1 then
      (countFrom 0 8).foldl (fun (s : State) e =>
        if e = s.uhleg.devId.toNat ∨ s.led 0x6400 0x12 e = 0 then s
        else
          let r := s.lendTo e
          (r.1.remoteWrite (r.1.portTo e) (list.toNat % 2 ^ 44) (r.2.flatMap (toBytes 4)) (.write 0 noPlace)).1) s
    else s)

end Sys2Proof.Machine
end

