-- ==== Sys2Proof/Machine/Dma.lean ====
section
/-! DEFINITION. Machine/Dma.lean: DMA_COPY (R16, R231, R239, R409, R433). -/

namespace Sys2Proof.Machine

/-- A destination moved on by k bytes. -/
def CopyDest.shift (d : CopyDest) (k : Nat) : CopyDest :=
  match d with
  | .buffers cells off => .buffers cells (off + k)
  | .memory a => .memory (a + k)
  | .remote p a => .remote p (a + k)
  | .host a => .host (a + k)

/-- Bytes delivered at a destination: how many answers the command then waits for, and the fault of a host write that
failed (R549). -/
def State.deliver (s : State) (hw : Hw) (q : QueueId) (place : Place) (d : CopyDest) (l : List Byte) :
    State × Nat × Option QFault :=
  match d with
  | .buffers cells off => (s.multicast cells off l, 0, none)
  | .memory a => (s.store hw a l, 0, none)
  | .remote p a =>
    let r := s.remoteWrite p a l (.write q place)
    (r.1, r.2, none)
  | .host a =>
    let r := s.hostWrite a l
    (r.1, 0, if r.2 then none else some (ovenFault badAddress 0 a))

/-- The destination of a copy that a cell executes (R409). -/
def State.copyDest (s : State) (o : DmaOps) (c : CellId) (addr : Nat) : CopyDest :=
  if o.destKind = 1 then .buffers [c] addr
  else if o.destKind = 2 then .host addr
  else if o.destKind = 3 then .buffers (cellIds o.multicast) addr
  else
    match s.target addr o.length.toNat with
    | .here a => .memory a
    | .away p a => .remote p a
    | .nowhere => .buffers [] 0

/-- MEM_READ requests for a range of another device (R505, R509), class P2: how many were sent. -/
def State.remoteCopy (s : State) (q : QueueId) (place : Place) (port : PortId) (addr n : Nat) (d : CopyDest) :
    State × Nat :=
  (cutRange addr n).foldl (fun (r : State × Nat) x =>
    let t := r.1.request port (requestHeader 1 2 0 x.2 (addr + x.1)) 1 x.2 (.copy q place (d.shift x.1))
    (t.1, r.2 + t.2.toNat)) (s, 0)

/-- What one copy of a DMA_COPY did. -/
def copied (d : State × Nat × Option QFault) (c : Nat) : CellDone :=
  match d.2.2 with
  | some f => .bad d.1 f c
  | none => ⟨d.1, {}, none, d.2.1, []⟩

/-- One copy: `reply` is what the host answered, for a host source (R549). -/
def State.copyOne (s : State) (x : Issue) (o : DmaOps) (hw : Hw) (c : CellId) (i : Nat) (reply : HostReply) : CellDone :=
  let n := o.length.toNat
  let src := o.source.toNat + i * (o.sourceStride.toNat * 128)
  let dest := s.copyDest o c (o.dest.toNat + i * (o.destStride.toNat * 128))
  if o.sourceKind = 1 then copied (s.deliver hw x.queue x.place dest (s.bufRead c src n)) c
  else if o.sourceKind = 2 then
    match (if s.pcie.up then reply else .failed) with
    | .data l => copied (s.deliver hw x.queue x.place dest (padTo 0 n l)) c
    | .failed => .bad s.hostFailure (ovenFault badAddress 0 src) c
    | .outstanding => ⟨s, {}, none, 1, [src]⟩
  else
    match s.target src n with
    | .here a =>
      let r := s.load hw a n
      match r.2 with
      | some l => copied (r.1.deliver hw x.queue x.place dest l) c
      | none => ⟨r.1, {}, none, 1, []⟩
    | .away p a =>
      let r := s.remoteCopy x.queue x.place p a n dest
      ⟨r.1, {}, none, r.2, []⟩
    | .nowhere => .bad s (ovenFault badAddress 0 src) c

/-- The copies of one cell, in order; `rank` is the cell's place in the mask. -/
def State.copies (s : State) (x : Issue) (o : DmaOps) (hw : Hw) (c : CellId) (rank : Nat) : List Nat → Nat → List Nat → CellDone
  | [], n, h => ⟨s, {}, none, n, h⟩
  | i :: t, n, h =>
    let d := s.copyOne x o hw c i (hw.host.getD (rank * o.repeats.toNat + i) .outstanding)
    match d.fault with
    | some _ => d
    | none => d.state.copies x o hw c rank t (n + d.waits) (h ++ d.hostReads)

/-- The copies of one cell, which advance PROGRESS by one for each 64 KiB (R433). -/
def State.dmaCell (s : State) (x : Issue) (o : DmaOps) (hw : Hw) (c : CellId) : CellDone :=
  let rank := ((cellIds x.header.mask).findIdx? (· == c)).getD 0
  let d := s.copies x o hw c rank (countFrom 0 o.repeats.toNat) 0 []
  { d with state := d.state.progress x.queue (o.repeats.toNat * o.length.toNat / 65536) }

/-! ### Checks -/

/-- A global address that a copy of a cell names lies where R16 lets the cell's DMA engine reach. -/
def State.copyReach (s : State) (c n g : Nat) : Option QFault :=
  match s.target g n with
  | .here a => failUnless (chimneyOf a == c || s.allCacheable a n) (ovenFault badAddress 0 g)
  | .away _ _ => none
  | .nowhere => some (ovenFault badAddress 0 g)

/-- What is wrong with one end of a DMA_COPY: its kind, address and stride, and the byte offset of its field. -/
def State.copyEnd (s : State) (o : DmaOps) (cells : List Nat) (kind addr stride field : Nat) : Option QFault :=
  let n := o.length.toNat
  let starts := (countFrom 0 o.repeats.toNat).map fun i => addr + i * (stride * 128)
  if kind = 1 ∨ kind = 3 then
    firstFault (alignFault addr 16 field :: starts.map fun a => bufFault a n)
  else if kind = 2 then firstFault (starts.map fun a => failUnless (decide (a + n ≤ 2 ^ 47)) (ovenFault badAddress 0 a))
  else firstFault (cells.flatMap fun c => starts.map fun a => s.copyReach c n a)

/-- What the Oven checks of a DMA_COPY (R16, R229, R231, R409; log entry 33). -/
def State.dmaCheck (s : State) (x : Issue) (o : DmaOps) : Option QFault :=
  let cells := cellsOf x.header.mask
  firstFault [s.cellHeader x 0x10 false,
    failUnless (decide (o.sourceKind.toNat ≤ 2)) (operandFault 8), failUnless (decide (o.destKind.toNat ≤ 3)) (operandFault 9),
    failUnless (between 1 o.repeats.toNat 4096) (operandFault 10),
    failUnless (decide (16 ≤ o.length.toNat) && decide (o.length.toNat % 16 = 0)) (operandFault 12),
    failUnless (o.destKind != 3 || o.multicast != 0) (operandFault 40),
    failUnless (o.sourceKind != 2 || o.destKind == 0 || o.destKind == 2) (ovenFault badAddress 0 o.source.toNat),
    s.copyEnd o cells o.sourceKind.toNat o.source.toNat o.sourceStride.toNat 16,
    s.copyEnd o cells o.destKind.toNat o.dest.toNat o.destStride.toNat 24]

/-- DMA_COPY. -/
def execDmaCopy (x : Issue) (o : DmaOps) (s : State) : Host.Outcome State Fault Refusal :=
  .next (s.issue x 0x10 (fun r => readDma r = o) (fun t _ => t.dmaCheck x o)
    fun hw t => t.cellWork hw x fun c u => u.dmaCell x o hw (Fin.ofNat 16 c))

end Sys2Proof.Machine
end

