-- ==== Sys2Proof/Machine/Start.lean ====
section
/-! DEFINITION. Machine/Start.lean: the start sequence (R98, R101 to R108, R735): what each stage does when it ends well,
how it fails, and the way to READY. -/

namespace Sys2Proof.Machine

/-! ### What the stages do -/

/-- Entries that stage 3 leaves although they are volatile: what the update flow keeps, and the time of the last start
(R566: the home chapter gives another source). -/
def keptByStart (index sub : Nat) : Bool :=
  (index == 0x8000 && between 0x40 sub 0x46) || (index == 0x1100 && sub == 0x16)

/-- Stage 3 (R93, R101, R565, R566): volatile entries take their defaults, persisted ones the store's values; sensors and
monitors are read anew. -/
def State.applyConfig (s : State) : State :=
  let kept := dropVolatile (fun i b => !keptByStart i b) s.ledger.live
  let each := s.sensors.each.map fun x => (x.1, { x.2 with peak := none, failed := false, missed := 0 })
  { s with
    ledger := { s.ledger with live := applyStore kept s.ledger.store }
    sensors := { s.sensors with each := each, monitorsFailed := [] } }

/-- The step of R158 at which a channel fails: connections beyond its 8 data spares and its command/address spare (R159), errors of
steps 2 and 5, eyes narrower than 24/64. -/
def trainingStep (c : ChannelTraining) : Option Nat :=
  if 8 < c.badData ∨ 1 < c.badCommand then some 1
  else if c.commandErrors ≠ 0 then some 2
  else if c.readEye.val < 24 then some 3
  else if c.writeEye.val < 24 then some 4
  else if c.pathErrors ≠ 0 then some 5
  else none

/-- What training found in a channel, none being listed for it: every connection good and every eye open. -/
def trainedWell (c : Fin 512) : ChannelTraining := ⟨c, 0, 0, 0, 64, 64, 0⟩

/-- What training found in every channel, in order. -/
def trainedChannels (w : StageWork) : List ChannelTraining :=
  (List.finRange 512).map fun n => (w.training.find? fun c => c.channel == n).getD (trainedWell n)

/-- The narrowest eyes of a channel, as 0x3000:20 gives them; an eye that training has not come to reads 0 (R158). -/
def eyesOf (c : ChannelTraining) : Nat :=
  match trainingStep c with
  | some 1 => 0
  | some 2 => 0
  | some 3 => c.readEye
  | _ => c.readEye + c.writeEye.val * 2 ^ 8

/-- What stage 5 measured, in a failed training too: 0x3000:20 and the spares in use of 0x3000:21 (R158, R159). -/
def State.reportTraining (s : State) (l : List ChannelTraining) : State :=
  let s := l.foldl (fun (s : State) c => s.setLed 0x3000 0x20 c.channel (eyesOf c)) s
  (countFrom 0 16).foldl (fun (s : State) n =>
    s.setLed 0x3000 0x21 n
      ((l.filter fun c => c.channel.val / 32 == n).map fun c => min 8 c.badData + min 1 c.badCommand).sum) s

/-- The channel that fails stage 5, if one does: the lowest (log entry 144). -/
def trainingFailure (l : List ChannelTraining) : Option Nat :=
  (l.find? fun c => (trainingStep c).isSome).map fun c => c.channel.val

/-- The channel of a codeword that stage 6 corrected in two read passes, if there is one (R160). -/
def twiceCorrected : List CodewordError → Option Nat
  | [] => none
  | e :: t =>
    if e.bit.isSome ∧ (t.any fun f => f.granule == e.granule && f.codeword == e.codeword && f.bit.isSome)
    then some (channelOf (e.granule * 128)) else twiceCorrected t

/-- The main rail that stage 1 finds outside its window, by its row (R101). -/
def State.railOut (s : State) : Option Nat := (mainRails.find? fun r => !s.power.inWindow.get r).map railRow

/-- Why a stage other than 8 and 9 fails: what stages 1, 5 and 6 find, or the failure that the work of the others reports (R101, R107,
R158 to R160). -/
def State.stageFailure (s : State) (stage : Nat) (w : StageWork) : Option Nat :=
  if stage = 1 then s.railOut
  else if stage = 5 then trainingFailure (trainedChannels w)
  else if stage = 6 then twiceCorrected w.errors
  else w.failed.map BitVec.toNat

/-- The runtime bank that 0x8000:03 names (R655). -/
def State.runtimeBank (s : State) : Bool := bit (s.led 0x8000 0x03) 1

/-- The cached windows hold the runtime's image and data (R452). -/
def State.windowsServe (s : State) : Bool :=
  decide (256 ≤ s.led 0x3400 0x01 0) && ((countFrom 1 15).all fun c => decide (16 ≤ s.led 0x3400 0x01 c))

/-- The image that stage 8 copies to chimney 0 at 0x0200_0000: the bank that step 1 chose, header and payload (R452, R651). -/
def State.runtimeImage (s : State) : List Byte :=
  let l := s.update.image (partBank 2 s.update.runtimeChosen)
  l.take (min (2 ^ 24) (256 + imageNat l 12 4))

/-- The tree's structures find their place in the runtime region, apart from each other and from the image (R328, R451). -/
def treePlaceFits (p : TreePlace) : Bool :=
  ((TreePlace.spans p).all fun x => regionHolds x.1 x.2) && apart ((2 ^ 25, 2 ^ 24) :: TreePlace.spans p)

/-- The code that the boot ROM or the runtime reports in stage 8, if it reports one (R452, R453), in the order of the steps: the
digest and the cores, the windows, the structures. -/
def State.runtimeError (s : State) (w : StageWork) : Option Nat :=
  if w.failed = some 1 ∨ w.failed = some 3 then w.failed.map BitVec.toNat
  else if s.windowsServe = false then some 2
  else if treePlaceFits w.tree = false then some 4
  else w.failed.map BitVec.toNat

/-- Stage 8 ends with an error (R452, R453, R652, R655): the image does not verify, or RUNTIME_STATUS reads FAILED with the code. -/
def State.bootFails (s : State) (w : StageWork) : Option (State × Nat × Nat) :=
  let b := s.update.runtimeChosen
  if s.checkBank (partBank 2 b) w.flipped ≠ 0 then some (s.markBank (partBank 2 b) false, 0x0A, b.toNat)
  else (s.runtimeError w).map fun d =>
    ({ s with serve := { ServeRegs.blank with status := 2, error := BitVec.ofNat 16 d } }, 0x0B, d)

/-- The cores that stage 8 releases (R452): the boot ROM's digest register holds the digest of the image, and core 0 has jumped to its
entry point. -/
def Cores.started (image : List Byte) : Cores :=
  { Cores.blank with
    each := (countFrom 0 8).map fun n =>
      (n, { Core.blank with
        released := true
        pc := if n = 0 then BitVec.ofNat 64 (2 ^ 25 + 256 + imageNat image 48 4) else Core.blank.pc })
    digest := sha256 image }

/-- Stage 10 begins (R101, R516): every enabled port trains. -/
def State.beginMesh (s : State) : State :=
  let enable := s.led 0x7000 0x02
  let s := (countFrom 0 8).foldl (fun (s : State) p =>
    if bit enable p then s.setPort p { Port.blank with state := .training } else s) s
  s.meshChanged false true

/-- The reason of a stage whose work reports an error (R101). -/
def stageReason (stage : Nat) : Nat :=
  if stage = 1 then 0x03 else if stage = 2 then 0x04 else if stage = 3 then 0x05 else if stage = 4 then 0x06
  else if stage = 5 then 0x07 else if stage = 6 then 0x08 else if stage = 7 then 0x09 else if stage = 8 then 0x0B
  else 0x0C

/-- The work of stages 1 to 9 that came out well (R101, R103, R452). -/
def State.stageWork (s : State) (stage : Nat) (w : StageWork) : State :=
  if stage = 2 then { s with power := { s.power with mainClocks := true, laneLock := 0xFF } }
  else if stage = 3 then s.applyConfig
  else if stage = 4 then { s with pcie := { s.pcie with enabled := true } }
  else if stage = 5 then s.startRefresh
  else if stage = 6 then { s with mem := [], cache := ⟨[], []⟩, memctl := { MemoryCtl.blank with corrected := s.memctl.corrected } }
  else if stage = 7 then { s with cells := .blank, front := .blank, cache := ⟨[], []⟩ }
  else if stage = 8 then
    let b := s.update.runtimeChosen
    let image := s.runtimeImage
    let s := (s.markBank (partBank 2 b) true).memWrite (2 ^ 25) image
    { s with
      update := { s.update with runtimeRan := some b }
      serve := { ServeRegs.blank with status := 1 }
      runtime := .blank
      tree := { Tree.blank with place := w.tree }
      cores := .started image }
  else s

/-- Step 1 of stage 8 selects the bank that 0x8000:03 names, on trial when an activated image is pending (R660, R661). -/
def State.chooseRuntime (s : State) : State :=
  { s with update := { s.update with runtimeChosen := s.runtimeBank, runtimeOnTrial := s.update.pendingRuntime } }

/-- A cell that failed its self-test reports the unit (0x4000:02). -/
def State.noteSelfTest (s : State) (cell : Nat) (u : Option CellUnit) : State :=
  if cell < 16 then s.setLed (0x4000 + cell) 0x02 0 ((u.bind unitCode).getD 0) else s

/-- A stage from 1 to 9 ends: its failure, or its work and the next stage. Wrong codewords that stage 6 and later stages
meet are counted first (R154, R155, R160), and can themselves end the attempt (R735). -/
def State.endStage (s : State) (w : StageWork) (peat : Option Word) : State :=
  let n := s.life.stage
  let s := if n ≥ 6 then s.readErrors w.errors else s
  if s.life.state ≠ .starting then s
  else
    let next (s : State) : State :=
      let s := { s with life := { s.life with stage := n + 1 } }
      if n = 9 then s.beginMesh else if n = 7 then s.chooseRuntime else s
    if n = 8 then
      match s.bootFails w with
      | some (s, reason, detail) => s.failStart reason detail (some peat)
      | none => next (s.stageWork 8 w)
    else if n = 9 then
      match s.testArrays w.reed (countFrom 0 16) with
      | (s, some c) => s.failStart 0x0C c (some peat)
      | (s, none) => next s
    else
      let s := if n = 5 then s.reportTraining (trainedChannels w) else s
      match s.stageFailure n w with
      | some d => (if n = 7 then s.noteSelfTest d w.unit else s).failStart (stageReason n) d (some peat)
      | none => next (s.stageWork n w)

/-- Stages end one after the other while the attempt lasts. -/
def State.endStages (s : State) (peat : Option Word) : List StageWork → State
  | [] => s
  | w :: t => if s.life.state = .starting ∧ s.life.stage < 10 then (s.endStage w peat).endStages peat t else s

/-! ### READY -/

/-- The attempt reaches READY (R102, R103, R105, R120, R661): the counter is cleared, the duration reported, a mesh that
is not complete is logged, and a runtime image on trial has passed. -/
def State.reachReady (s : State) : State :=
  let s := (s.setStored 0x1100 0x03 0 0).setLed 0x1100 0x16 0 (s.life.micros % 2 ^ 32)
  let complete := s.meshComplete
  let trial := s.update.runtimeOnTrial
  let s := { s with
    life := { s.life with stage := 0, openAttempt := none, micros := 0 }
    update := { s.update with runtimeOnTrial := false } }
  let s := s.enterState .ready
  let s := if complete then s else s.raise 0x0107 sevWarning [byte s.missingPorts]
  if trial then
    ({ s with update := { s.update with pendingRuntime := false } }).trialPassed (partBank 2 s.update.runtimeChosen)
  else s

/-- An attempt goes on: the configuration system runs its stages under Uhleg's direction, and a restart of Uhleg ends it
(R124), at the boot that follows (R98). -/
def State.attemptRuns (s : State) : Bool := s.life.state == .starting && s.uhleg.phase == .firmware

/-- Stage 10 ends as soon as every required port is UP (R102). -/
def State.meshCensus (s : State) (micros : Nat) : State :=
  if s.attemptRuns ∧ s.life.stage = 10 ∧ s.missingPorts = 0 then
    ({ s with life := { s.life with micros := s.life.micros + micros } }).reachReady
  else s

/-! ### The commands -/

/-- The conditions of R98 that the rails and clocks set for leaving STANDBY (R80, R126). A root PLL that is not locked
keeps the device there too, since no stage can run without it (log entry 131). -/
def State.railsReady (s : State) : Bool :=
  s.life.state == .standby && s.mainPower && s.power.sequenceBlock.isNone && s.uhleg.phase == .firmware &&
    s.power.rootLock && !s.power.clocksStopped

/-- The attempt begins (R105): the counter advances, and stage 1 begins; a power-sequencing event cannot be found there,
since it would have kept the attempt from beginning (R80, R98). -/
def State.beginAttempt (s : State) (a : Attempt) : State :=
  let n := min 255 (s.led 0x1100 0x03 + 1)
  let s := s.setStored 0x1100 0x03 0 n
  let s := { s with
    life := { s.life with stage := 1, micros := a.micros }
    sensors := { s.sensors with each := s.sensors.each.map fun (x : Nat × SensorState) => (x.1, x.2.reopened) } }
  (((s.enterState .starting).endStages a.peat a.stages)).meshCensus 0

/-- START_ATTEMPT (R98, R101, R117): BOOT_SAFE is sampled as RESET_N is released; in PEAT the endpoint, which the assertion
of RESET_N took down (R119), comes up again (R99, R115). -/
def State.releaseReset (s : State) (a : Attempt) : State :=
  let bootSafe := if s.life.resetHigh then s.life.bootSafe else a.bootSafe
  let s := { s with life := { s.life with resetHigh := true, bootSafe := bootSafe } }
  if s.life.state = .peat then s.peatEndpoint a.peat
  else if s.railsReady then
    if bootSafe then s.enterPeat 2 a.peat
    else if s.led 0x1100 0x03 ≥ 3 then s.enterPeat 1 a.peat
    else s.beginAttempt a
  else s

/-- Also goes on with an attempt that is running: the stages that ended since, and the µs they took. -/
def execStartAttempt (a : Attempt) (s : State) : Host.Outcome State Fault Refusal :=
  .next (if s.life.state = .starting then
      if s.attemptRuns = false then s
      else if s.life.stage = 10 then s.meshCensus a.micros
      else ((({ s with life := { s.life with micros := s.life.micros + a.micros } }).endStages a.peat a.stages)).meshCensus 0
    else if s.life.state = .off then { s with life := { s.life with resetHigh := true } }
    else s.releaseReset a)

/-- A stage from 1 to 9 overruns its budget (R102); in stage 8 no status was written before it ran out (R453; log entry 121). -/
def execStageTimeout (s : State) : Host.Outcome State Fault Refusal :=
  .next (if s.attemptRuns ∧ s.life.stage < 10 then
      if s.life.stage = 8 then s.failStart 0x0B 0 else s.failStart 0x0F s.life.stage
    else s)

/-- Stage 10 ends 1,000 ms after it began (R102). -/
def execStage10BudgetExpiry (s : State) : Host.Outcome State Fault Refusal :=
  .next (if s.attemptRuns ∧ s.life.stage = 10 then
      ({ s with life := { s.life with micros := s.life.micros + 1000000 } }).reachReady
    else s)

end Sys2Proof.Machine
end

