-- ==== Sys2Proof/Machine/Aelis.lean ====
section
/-! DEFINITION. Machine/Aelis.lean: the Aelis ports (chapter 14): training and the census, frames, replay and credits,
link-down, and the transactions of peers. -/

namespace Sys2Proof.Machine

/-- The request channel and the response channel (R496). -/
def kindReq : Nat := 1
def kindRsp : Nat := 2

/-! ### Link down -/

/-- What becomes of a command when a request of it ends with TARGET_GONE (R28, R287, R302, R311, R515): a copy or an
atomic completes with nothing delivered (log entry 24). -/
def State.endGone (s : State) (w : Waiter) : State :=
  match w with
  | .copy q place _ => s.arrived q place
  | .write q place => s.arrived q place
  | .append q place list _ page _ => (s.markGone quiet list.toNat (pageDevice page.toNat)).arrived q place
  | .atomic q place _ _ _ _ _ => s.arrived q place
  | .page q place cell index entry _ _ => s.pageGone quiet q place cell index entry
  | .rows list page => s.markGone quiet list.toNat (pageDevice page.toNat)

/-- A required port lost in IN_SERVICE in MESH_STRIPED mode starts a drain (R113). -/
def State.lostInService (s : State) (p : PortId) : State :=
  if s.life.state = .inService ∧ s.led 0x1100 0x11 = 1 ∧ bit (s.led 0x1100 0x12) p ∧ s.life.drain = none then
    { s with life := { s.life with serveOkLow := true, drain := some .portLost } }
  else s

/-- A port that is UP goes down (R519, R521, R522): the cause is logged, every request outstanding or waiting for a tag
ends with TARGET_GONE, and what was received is discarded. -/
def State.linkDown (s : State) (p : PortId) (cause : Nat) : State :=
  if (s.port p).state = .up then
    let before := s.meshComplete
    let l := s.link p
    let s := s.portGoesDown p cause
    let gone := l.outstanding.map Outstanding.waiter ++ l.queue.map fun x => x.2.waiter
    let s := (s.setLink p .blank).bump 0x7000 0x25 p gone.length
    let s := gone.foldl State.endGone s
    (s.meshChanged before true).lostInService p
  else s

/-! ### Training -/

/-- A port may train (R516): it is enabled, and the device is in stage 10, READY or IN_SERVICE. -/
def State.trains (s : State) (p : Nat) : Bool := s.meshState && bit (s.led 0x7000 0x02) p

/-- The failure code of 0x7000:24 that the steps of an attempt give, 0 where they come to step 7 (R516, R525); 8 is CENSUS. The laser
limit is 17.0 dBm, 50.12 mW. -/
def failureCode (r : TrainingRun) : Nat :=
  if r.laser.any fun v => decide (v.toNat < 5012) then 1
  else if r.dark ≠ [] then 2
  else if r.unadapted ≠ [] then 3
  else if r.order ≠ countFrom 0 64 then 4
  else if 16000 < r.skew then 5
  else if 2112 < r.errors then 6
  else if r.locked = false then 7
  else 0

/-- A training attempt fails (R516, R647): the event is raised when the port's previous attempt did not fail alike. -/
def State.trainingFails (s : State) (p : PortId) (code : Nat) : State :=
  let l := s.link p
  let s := s.setPort p { Port.blank with state := if code = 8 then .mismatch else .training }
  let s := s.setLink p { PortWork.blank with failed := code }
  let s := s.setLed 0x7000 0x24 p code
  if l.failed = code then s else s.raise 0x0603 sevInfo [byte p, byte code]

/-- The IDENT body this device sends on a port (R517). -/
def State.identBody (s : State) (p : PortId) : List Byte :=
  [2, 1, 0, 0] ++ toBytes 4 0x4800 ++ [0xB1, s.uhleg.trayId, byte s.uhleg.devId.toNat, byte p, byte s.life.state.code]

/-- What steps 1 and 2 of R516 measured: laser power per wavelength, and receive power per lane. -/
def State.reportPower (s : State) (p : PortId) (laser power : List Half) : State :=
  let put (sub base : Nat) (s : State) (l : List Half) : State :=
    ((countFrom base l.length).zip l).foldl (fun (s : State) x => s.setLed 0x7000 sub x.1 x.2.toNat) s
  put 0x11 (64 * p) (put 0x10 (4 * p) s (laser.take 4)) (power.take 64)

/-- A training attempt (R516): it fails, or reaches step 7 and sends IDENT. -/
def State.train (s : State) (p : PortId) (r : TrainingRun) : State :=
  let code := failureCode r
  let s := s.reportPower p r.laser (if code = 1 then [] else r.power)
  if code ≠ 0 then s.trainingFails p code
  else
    let s := s.setPort p { Port.blank with state := .training, awaiting := true }
    let s := s.setLink p { PortWork.blank with failed := (s.link p).failed }
    s.sendControl p (s.identBody p)

/-- PORT_TRAINING_ATTEMPT (R516). -/
def execPortTrainingAttempt (port : PortId) (run : TrainingRun) (s : State) : Host.Outcome State Fault Refusal :=
  .next (if s.trains port ∧ (s.port port).state ≠ .up ∧ (s.port port).state ≠ .down then s.train port run else s)

/-- The census of R517 on the IDENT body of a peer. -/
def State.census (s : State) (p : PortId) (b : List Byte) : Bool :=
  let at_ (i : Nat) : Nat := imageNat b i 1
  let wiring : Bool := if p.val = 7 then at_ 9 != s.uhleg.trayId.toNat && at_ 11 == 7
    else at_ 9 == s.uhleg.trayId.toNat && at_ 10 == (s.uhleg.devId.toNat + p + 1) % 8 && at_ 11 == 6 - p
  at_ 1 == 1 && wiring && between 2 (at_ 12) 4

/-- The device that a mesh port reaches (R512). -/
def State.deviceAt (s : State) (p : PortId) : Nat := (s.uhleg.devId.toNat + p + 1) % 8

/-- The port is UP (R516, step 8): a new epoch begins, and what the runtime held on the peer is gone (R523). -/
def State.linkUp (s : State) (p : PortId) (b : List Byte) : State :=
  let before := s.meshComplete
  let s := s.setPort p { s.port p with state := .up, awaiting := false }
  let s := s.setLink p { s.link p with failed := 0 }
  let s := (s.bump 0x7000 0x04 p 1).setLed 0x7000 0x03 p (imageNat b 4 8)
  let s := s.raise 0x0602 sevInfo ([byte p, 0, 0, 0] ++ (b.drop 4).take 9)
  let s := s.meshChanged before true
  if p.val < 7 ∧ s.runtimeRuns then s.peerGone (s.deviceAt p) else s

/-- The front control flit of a port, when it has the type asked for, and the port without it (R497). -/
def State.takeControl (s : State) (p : PortId) (type : Nat) : Option (State × List Byte) :=
  match (s.link p).control with
  | b :: t => if imageNat b 0 1 = type then some (s.setLink p { s.link p with control := t }, b) else none
  | [] => none

/-- IDENT (R517): the peer's identity is checked; a port that passes may end stage 10, which has taken `micros` µs. -/
def execIdent (port : PortId) (micros : Nat) (s : State) : Host.Outcome State Fault Refusal :=
  .next (match s.takeControl port 2 with
    | none => s
    | some (s, b) =>
      if (s.port port).state = .training ∧ (s.port port).awaiting ∧ s.trains port then
        if s.census port b then (s.linkUp port b).meshCensus micros else s.trainingFails port 8
      else s)

/-! ### Receiving flits -/

/-- Replays (R499): every unacknowledged flit is sent again; when four attempts on the same first SEQ have failed, the
link goes down with cause REPLAY. -/
def State.replayLink (s : State) (port : PortId) : State :=
  let p := s.port port
  if p.replay = [] then s
  else if 4 ≤ p.attempts then s.linkDown port 3
  else
    let r := { p with attempts := p.attempts + 1 }.resend (p.replay.map Prod.snd)
    (s.sendSlots port r.1 r.2).bump 0x7000 0x22 port 1

/-- What is left of a replay buffer when an ACK has come (R499): nothing up to the flit that it covers. -/
def afterAck (replay : List (Nat × List Byte)) (ack : Nat) : List (Nat × List Byte) :=
  if replay.any fun x => x.1 == ack then (replay.dropWhile fun x => x.1 != ack).drop 1 else replay

/-- An ACK is taken (R499): progress ends the count of attempts on the old first SEQ. -/
def Port.acknowledge (p : Port) (ack : Nat) : Port :=
  let rest := afterAck p.replay ack
  { p with replay := rest, attempts := if rest.length = p.replay.length then p.attempts else 0 }

/-- What the head of a transaction stream holds (R504 to R508). -/
inductive Parsed where
  /-- not a whole transaction yet -/
  | partly
  /-- PAD: the rest of the flit is ignored -/
  | pad
  /-- a header that ends the link -/
  | bad
  /-- a whole transaction of so many bytes -/
  | whole (n : Nat)
  deriving DecidableEq, Repr

/-- A number of bytes in whole 4-byte words (R504). -/
def inWords (n : Nat) : Nat := (n + 3) / 4 * 4

/-- The bytes of a page transaction's data by its geometry extension (R505, R506): slot count × row bytes. -/
def pageBytes (l : List Byte) : Nat := imageNat l 26 2 * (4 * imageNat l 20 1 * imageNat l 22 2)

/-- The reserved bits of a request's header are zero (R506, R508); those of an extension are ignored (R10). -/
def requestClean (l : List Byte) : Bool :=
  let op := imageNat l 0 1 % 16
  let target := imageNat l 8 8
  decide (imageNat l 0 1 < 64) && decide (imageNat l 1 2 < 1024) && decide (imageNat l 3 1 < 2) &&
    (if op ≤ 3 then decide (target < 2 ^ 44) else imageNat l 13 1 == 0) &&
    (op != 3 || imageNat l 5 3 == 0)

/-- The head of a stream, cut by its header (R504, R505, R508). -/
def parseHead (kind : Nat) (l : List Byte) : Parsed :=
  let op := imageNat l 0 1 % 16
  let known : Bool := if kind = kindReq then between 1 op 5 else between 8 op 12
  if l.length < 4 then .partly
  else if imageNat l 0 1 = 0 then .pad
  else if known = false then .bad
  else if l.length < 16 ∨ (kind = kindReq ∧ 3 ≤ op ∧ l.length < 32) then .partly
  else if kind = kindReq then
    if requestClean l = false then .bad
    else
      let n := if op = 2 then 16 + inWords (imageNat l 4 4) else if op = 3 ∨ op = 4 then 32
        else if op = 5 then 32 + inWords (pageBytes l) else 16
      if n ≤ l.length then .whole n else .partly
  else if 2 ≤ imageNat l 0 1 / 16 ∨ 1024 ≤ imageNat l 1 2 ∨ imageNat l 3 1 ≠ 0 ∨ (op ≠ 10 ∧ imageNat l 8 8 ≠ 0) then .bad
  else
    let n := if (op = 8 ∨ op = 11) ∧ imageNat l 0 1 / 16 = 0 then 16 + inWords (imageNat l 4 4) else 16
    if n ≤ l.length then .whole n else .partly

/-- Every whole transaction at the head of a stream: what remains, the transactions, and whether a header ends the link. -/
def parseStream (kind : Nat) : Nat → List Byte → List Byte × List (List Byte) × Bool
  | 0, l => (l, [], false)
  | fuel + 1, l =>
    match parseHead kind l with
    | .partly => (l, [], false)
    | .pad => ([], [], false)
    | .bad => ([], [], true)
    | .whole n =>
      let r := parseStream kind fuel (l.drop n)
      (r.1, l.take n :: r.2.1, r.2.2)

/-- Transactions that end in one flit: with the last of them the flit's slot is freed (R503). -/
def slotMarks : List (List Byte) → List (List Byte × Bool)
  | [] => []
  | [x] => [(x, true)]
  | x :: t => (x, false) :: slotMarks t

/-- Slots of a channel freed by this receiver. -/
def Port.freeSlot (p : Port) (kind : Nat) : Port :=
  if kind = kindReq then { p with madeReq := p.madeReq + 1 } else { p with madeRsp := p.madeRsp + 1 }

/-- The body of a sequenced flit joins its channel's stream (R504); a flit in which no transaction ends is freed at once
(R503). False when a header ends the link. -/
def State.takeBody (s : State) (port : PortId) (kind : Nat) (body : List Byte) : State × Bool :=
  let p := s.port port
  let l := s.link port
  let r := parseStream kind 64 ((if kind = kindReq then p.streamReq else p.streamRsp) ++ body)
  let p := if kind = kindReq then { p with streamReq := r.1 } else { p with streamRsp := r.1 }
  let p := if r.2.1 = [] then p.freeSlot kind else p
  let items := slotMarks r.2.1
  let l := if kind = kindReq then { l with requests := l.requests ++ items } else { l with responses := l.responses ++ items }
  (((s.setPort port p).setLink port l).bump 0x7000 0x31 port 252, !r.2.2)

/-- A sequenced flit (R499): accepted in SEQ order, else ignored, with a NAK for the first one out of order. -/
def State.takeSequenced (s : State) (port : PortId) (seq kind : Nat) (body : List Byte) : State × Bool :=
  let p := s.port port
  if seq = p.expected then
    (s.setPort port { p with expected := (p.expected + 1) % 4096, ignoring := false }).takeBody port kind body
  else if p.ignoring then (s, true)
  else (s.setPort port { p with nakOwed := true, ignoring := true }, true)

/-- One flit of an accepted frame (R496 to R499). -/
def State.takeFlit (s : State) (port : PortId) (flit : List Byte) : State :=
  let h := imageNat flit 0 4
  let seq := bits h 0 12
  let ack := bits h 12 12
  let kind := bits h 25 2
  let body := (flit.drop 4).take 252
  let s := s.setPort port ((s.port port).acknowledge ack)
  let s : State := if bit h 24 ∧ (s.port port).nakSeen ≠ some ack then
      (s.setPort port { s.port port with nakSeen := some ack }).replayLink port
    else s
  if (s.port port).state = .down then s
  else if kind = 3 then
    if between 1 (imageNat body 0 1) 3 then
      s.setLink port { s.link port with control := (s.link port).control ++ [body] }
    else s
  else if kind = 0 then s
  else
    let r := s.takeSequenced port seq kind body
    if r.2 then r.1 else r.1.linkDown port 5

/-- Flits taken until the link goes down. -/
def State.takeFlits (s : State) (port : PortId) : List (List Byte) → State
  | [] => s
  | f :: t => if (s.port port).state = .down then s else (s.takeFlit port f).takeFlits port t

/-- The port receives: it is UP, or has reached step 7 of its training. -/
def State.receives (s : State) (p : PortId) : Bool := (s.port p).state == .up || (s.port p).awaiting

/-- An ACK or NAK that nothing else carried is returned in a NULL flit (R499, R500). -/
def State.returnAck (s : State) (port : PortId) (expected slot : Nat) : State :=
  let p := s.port port
  if p.state = .up ∧ p.slot = slot ∧ (p.nakOwed ∨ p.expected ≠ expected) then
    let r := p.putFlits [(0, [])]
    s.sendSlots port r.1 r.2
  else s

/-- The frame counter is checked (R492, R519): how many in a row were wrong. -/
def countAfter (good : Bool) (n : Nat) : Nat := if good then 0 else n + 1

/-- A frame reaches the receiver (R491 to R494, R499, R519): corrected symbols are counted, and its flits taken, unless a codeword is
uncorrectable or the CRC differs. -/
def State.takeFrame (s : State) (port : PortId) (f : FecFrame) : State :=
  let r := receivedFrame f.first f.second
  let good : Option (List Byte) := r.2.bind fun x => if crc32 x.2.2 = x.2.1 then some x.2.2 else none
  let p := s.port port
  let l := s.link port
  let l := { l with
    badFrames := countAfter good.isSome l.badFrames
    badCounters := match r.2 with
      | some x => countAfter (x.1 == byte p.framesIn) l.badCounters
      | none => l.badCounters }
  let s := s.bump 0x7000 0x20 port r.1
  let s := s.setLink port l
  let s := s.setPort port { p with framesIn := p.framesIn + 1, nakSeen := none }
  let s : State := match good with
    | some bytes => s.takeFlits port (chunks 256 bytes)
    | none => (s.setPort port { s.port port with nakOwed := true, ignoring := true }).bump 0x7000 0x21 port 1
  if 64 ≤ l.badFrames ∨ 64 ≤ l.badCounters then s.linkDown port 2
  else (s.pump port).returnAck port p.expected (s.port port).slot

/-- FRAME_RECEIVED (R494). -/
def execFrameReceived (port : PortId) (frame : FecFrame) (s : State) : Host.Outcome State Fault Refusal :=
  .next (if s.receives port then s.takeFrame port frame else s)

/-- REPLAY_TIMEOUT (R499). -/
def execReplayTimeout (port : PortId) (s : State) : Host.Outcome State Fault Refusal :=
  .next (if (s.port port).state = .up then s.replayLink port else s)

/-! ### Control flits -/

/-- Slots of a channel come back (R502), by the cumulative count of a SKIP: to its reserve first. -/
def Port.restore (p : Port) (req rsp : Nat) : Port :=
  let a := (req + 2 ^ 32 - p.freedReq % 2 ^ 32) % 2 ^ 32
  let b := (rsp + 2 ^ 32 - p.freedRsp % 2 ^ 32) % 2 ^ 32
  { p with
    freedReq := p.freedReq + a, freedRsp := p.freedRsp + b
    reserveReq := p.reserveReq - a, reserveRsp := p.reserveRsp - b }

/-- SKIP (R497, R502). -/
def execSkip (port : PortId) (s : State) : Host.Outcome State Fault Refusal :=
  .next (match s.takeControl port 1 with
    | none => s
    | some (s, b) => (s.setPort port ((s.port port).restore (imageNat b 4 4) (imageNat b 8 4))).pump port)

/-- GOODBYE (R519, R520). -/
def execGoodbye (port : PortId) (s : State) : Host.Outcome State Fault Refusal :=
  .next (match s.takeControl port 3 with
    | none => s
    | some (s, _) => s.linkDown port 4)

/-- LINK_DOWN (R519, R521): the signal or the laser input is lost. -/
def execLinkDown (port : PortId) (loss : LinkLoss) (s : State) : Host.Outcome State Fault Refusal :=
  .next (s.linkDown port (match loss with
    | .los => 1
    | .laser => 6))

/-- The state of a port that does not train: DARK while it is enabled (log entry 57). -/
def State.restingPort (s : State) (p : Nat) : PortState := if bit (s.led 0x7000 0x02) p then .dark else .disabled

/-- LINK_DOWN_HOLD_EXPIRY (R521, step 4). -/
def execLinkDownHoldExpiry (port : PortId) (s : State) : Host.Outcome State Fault Refusal :=
  .next (if (s.port port).state = .down then
      s.setPort port { Port.blank with state := if s.trains port then .training else s.restingPort port }
    else s)

/-- One port after a write of 0x7000:02 (R529). -/
def State.enablePort (s : State) (p : PortId) (was : Nat) : State :=
  let now := s.led 0x7000 0x02
  if bit was p ∧ bit now p = false then
    if (s.port p).state = .up then (s.sendControl p [3, 3]).linkDown p 7
    else if (s.port p).state = .down then s
    else s.setPort p Port.blank
  else if bit was p = false ∧ bit now p ∧ (s.port p).state ≠ .down then
    s.setPort p { Port.blank with state := if s.trains p then .training else .dark }
  else s

/-- The effect of a write of 0x7000:02 that replaced the value `was` (R529). -/
def State.enablePorts (s : State) (was : Nat) : State :=
  (List.finRange 8).foldl (fun (s : State) p => s.enablePort p was) s

/-! ### Requests of peers -/

/-- A whole transaction has been taken from its list: its slot is freed (R503). -/
def State.freeSlot (s : State) (port : PortId) (kind : Nat) (frees : Bool) : State :=
  if frees then s.setPort port ((s.port port).freeSlot kind) else s

/-- The front request of an UP port, when it has the opcode asked for, handed to the fabric (R503, R514). -/
def State.takeRequest (s : State) (port : PortId) (opcode : Nat) : Option (State × List Byte) :=
  match (s.link port).requests with
  | (r, frees) :: t =>
    if (s.port port).state = .up ∧ imageNat r 0 1 % 16 = opcode then
      some ((s.setLink port { s.link port with requests := t }).freeSlot port kindReq frees, r)
    else none
  | [] => none

/-- A response to a request (R507): opcode, status, the old value of an atomic, and data. -/
def State.respond (s : State) (port : PortId) (request : List Byte) (opcode status value : Nat) (data : List Byte) :
    State :=
  s.sendTransaction port kindRsp none
    ([byte (opcode + 16 * status)] ++ (request.drop 1).take 2 ++ [0] ++ toBytes 4 data.length ++ toBytes 8 value ++ data)

/-- ADDRESS_ERROR (R508). -/
def addressError : Nat := 1

/-- A memory request of a peer may be performed (R134, R508). -/
def peerRange (addr n : Nat) : Bool :=
  n % 16 == 0 && between 16 n 4096 && addr % 16 == 0 && decide (addr % 4096 + n ≤ 4096) && populated addr n

/-- MEM_READ: served, and answered with READ_DATA (R508); an uncorrectable error halts the target, and it sends no
response (R531). -/
def State.serveMemRead (s : State) (port : PortId) (r : List Byte) (hw : Hw) : State :=
  let n := imageNat r 4 4
  let addr := imageNat r 8 8
  if peerRange addr n then
    match s.load hw addr n with
    | (s, some bytes) => s.respond port r 8 0 0 bytes
    | (s, none) => s
  else s.respond port r 8 addressError 0 []

def execMemRead (port : PortId) (hw : Hw) (s : State) : Host.Outcome State Fault Refusal :=
  .next (match s.takeRequest port 1 with
    | some (s, r) => s.overFabric hw fun t => t.serveMemRead port r hw
    | none => s)

/-- Bytes of a peer written, unless an uncorrectable error of a line withholds them; whether they were. -/
def State.peerStore (s : State) (hw : Hw) (addr : Nat) (bytes : List Byte) : State × Bool :=
  let r := s.access hw addr bytes.length true
  (if r.2 then r.1.memWrite addr bytes else r.1, r.2)

/-- MEM_WRITE: performed, and acknowledged with WRITE_ACK (R508, R515). -/
def State.serveMemWrite (s : State) (port : PortId) (r : List Byte) (hw : Hw) : State :=
  let n := imageNat r 4 4
  let addr := imageNat r 8 8
  if peerRange addr n then
    let t := s.peerStore hw addr ((r.drop 16).take n)
    if t.2 then t.1.respond port r 9 0 0 [] else t.1
  else s.respond port r 9 addressError 0 []

def execMemWrite (port : PortId) (hw : Hw) (s : State) : Host.Outcome State Fault Refusal :=
  .next (match s.takeRequest port 2 with
    | some (s, r) => s.overFabric hw fun t => t.serveMemWrite port r hw
    | none => s)

/-- ATOMIC: performed in the slice, and answered with ATOMIC_RSP; a refusal counts (R178, R180, R194, R508, R510). -/
def State.serveAtomic (s : State) (port : PortId) (r : List Byte) (hw : Hw) : State :=
  let code := imageNat r 4 1
  let addr := imageNat r 8 8
  let w := atomicWidth code
  if between 1 code 13 ∧ addr % w = 0 ∧ s.allCacheable addr w then
    match s.atomicAt hw code addr (imageNat r 16 8) (imageNat r 24 8) with
    | (s, some old, _) => s.respond port r 10 0 (if bit (imageNat r 3 1) 0 then old else 0) []
    | (s, none, _) => s
  else (s.bump 0x3400 0x31 0 1).respond port r 10 addressError 0 []

def execAelisAtomic (port : PortId) (hw : Hw) (s : State) : Host.Outcome State Fault Refusal :=
  .next (match s.takeRequest port 3 with
    | some (s, r) => s.overFabric hw fun t => t.serveAtomic port r hw
    | none => s)

/-- Where the rows of a page transaction lie (R283, R310, R508): their local address and length; none for ADDRESS_ERROR. -/
def State.peerPage (s : State) (r : List Byte) (hw : Hw) : (State × Bool) × Option (Nat × Nat) :=
  let pn := imageNat r 8 4
  let layer := imageNat r 14 2
  let first := imageNat r 24 2
  let count := imageNat r 26 2
  match s.pool (imageNat r 12 1) with
  | none => ((s, true), none)
  | some d =>
    if imageNat r 16 2 = d.size ∧ imageNat r 18 2 = d.layers ∧ imageNat r 20 1 = d.heads ∧ imageNat r 21 1 = d.group ∧
        imageNat r 22 2 = d.dim ∧ layer < d.layers ∧ first + count ≤ d.size ∧ count * d.row ≤ 2 ^ 20 ∧
        s.pageNamed d pn ∧ s.ownPage pn then
      let f := State.readFrame (s, true) hw d pn
      (f.1, f.2.map fun frame => (d.slotAddress (pageCell pn) layer frame first, count * d.row))
    else ((s, true), none)

/-- PAGE_READ: translated, read, and answered with PAGE_DATA (R310). -/
def State.servePageRead (s : State) (port : PortId) (r : List Byte) (hw : Hw) : State :=
  match s.peerPage r hw with
  | ((s, false), _) => s
  | ((s, true), none) => s.respond port r 11 addressError 0 []
  | ((s, true), some (addr, n)) =>
    match s.load hw addr n with
    | (s, some bytes) => (s.bump 0x5000 0x23 0 1).respond port r 11 0 0 bytes
    | (s, none) => s

def execPageRead (port : PortId) (hw : Hw) (s : State) : Host.Outcome State Fault Refusal :=
  .next (match s.takeRequest port 4 with
    | some (s, r) => s.overFabric hw fun t => t.servePageRead port r hw
    | none => s)

/-- PAGE_WRITE: translated, written, and acknowledged with PAGE_ACK (R310, R515). -/
def State.servePageWrite (s : State) (port : PortId) (r : List Byte) (hw : Hw) : State :=
  match s.peerPage r hw with
  | ((s, false), _) => s
  | ((s, true), none) => s.respond port r 12 addressError 0 []
  | ((s, true), some (addr, n)) =>
    let t := s.peerStore hw addr ((r.drop 32).take n)
    if t.2 then t.1.respond port r 12 0 0 [] else t.1

def execPageWrite (port : PortId) (hw : Hw) (s : State) : Host.Outcome State Fault Refusal :=
  .next (match s.takeRequest port 5 with
    | some (s, r) => s.overFabric hw fun t => t.servePageWrite port r hw
    | none => s)

/-! ### Responses to this device -/

/-- A response taken from its port: the state without it, the request it answers, and its bytes. -/
structure Answered where
  state : State
  request : Outstanding
  bytes : List Byte

/-- The front response of an UP port, when it has the opcode asked for (R507): its slot is freed, and the request with its
tag leaves the outstanding ones, so that one that waits for a tag is sent (R509). -/
def State.takeResponse (s : State) (port : PortId) (opcode requestCode : Nat) : Option (State × Option Answered) :=
  match (s.link port).responses with
  | (r, frees) :: t =>
    if (s.port port).state = .up ∧ imageNat r 0 1 % 16 = opcode then
      let l := { s.link port with responses := t }
      let s := (s.setLink port l).freeSlot port kindRsp frees
      match l.outstanding.find? fun o => o.tag == imageNat r 1 2 && o.opcode == requestCode with
      | some o =>
        let s := s.setLink port { l with outstanding := l.outstanding.filter fun x => x.tag != o.tag }
        let s := s.nextRequest port
        some (s, some ⟨s, o, r⟩)
      | none => some (s, none)
    else none
  | [] => none

/-- A sequence's BAD_PAGE fault for a page write refused by its target (R310). -/
def State.appendRefused (s : State) (q : QueueId) (place : Place) (list : DWord) (entry : Nat) (page : Word) : State :=
  let seq := (s.cacheableAt list.toNat 64).map fun a => s.memNat (a + 4) 2
  s.faultInFlight q place (kvFault kvBadPage seq entry page.toNat (pageCell page.toNat))

/-- A request ends with ADDRESS_ERROR (R310, R508; log entry 24): counted, and a fault of the command; of an atomic the
misaligned-or-uncached cause (R180). -/
def State.refusedBy (s : State) (port : PortId) (w : Waiter) : State :=
  let s := s.bump 0x7000 0x26 port 1
  let bad := ovenFault badAddress 0
  match w with
  | .copy q place _ => s.faultInFlight q place bad
  | .write q place => s.faultInFlight q place bad
  | .append q place list entry page _ => s.appendRefused q place list entry page
  | .atomic q place _ _ _ _ _ => s.faultInFlight q place (ovenFault badCaching 0)
  | .page q place cell index entry _ _ => s.pageRefused q place cell index entry
  | .rows _ _ => s

/-- An uncorrectable error of a cell concerned, or a lost flit, withholds what is delivered there (R227, R233). -/
def withheld (hw : Hw) (cells : List CellId) : Bool :=
  hw.cellBad.any fun x => cells.contains x.1 || x.2.1 == .fabric

/-- The cells that a response delivers to. -/
def Waiter.cells : Waiter → List CellId
  | .copy _ _ (.buffers cells _) => cells
  | .atomic _ _ cell (some _) _ _ _ => [cell]
  | .page _ _ cell _ _ _ _ => [cell]
  | _ => []

/-- A request ends with OK: what its command gets (R16, R293, R302, R507, R515). What an uncorrectable error withholds never
arrives (R227). -/
def State.answered (s : State) (hw : Hw) (r : List Byte) (w : Waiter) : State :=
  let data := (r.drop 16).take (imageNat r 4 4)
  if withheld hw w.cells then s
  else
    match w with
    | .copy q place dest =>
      let d := s.deliver hw q place dest data
      let s := (d.1.awaits q place d.2.1 []).arrived q place
      match d.2.2 with
      | some f => s.faultInFlight q place f
      | none => s
    | .write q place => s.arrived q place
    | .append q place _ _ _ rows => (s.bump 0x5000 0x20 0 rows).arrived q place
    | .atomic q place cell dest code v compare =>
      (s.atomicDone q place cell dest code v compare (imageNat r 8 8)).arrived q place
    | .page q place cell index entry first _ => s.pageCame hw q place cell index entry first data
    | .rows _ _ => s

/-- A response completes its request (R507); the hardware met `hw` on the way. -/
def State.respondedTo (s : State) (port : PortId) (opcode requestCode : Nat) (hw : Hw) : State :=
  match s.takeResponse port opcode requestCode with
  | some (_, some a) =>
    (if imageNat a.bytes 0 1 / 16 = 0 then a.state.answered hw a.bytes a.request.waiter
    else a.state.refusedBy port a.request.waiter).meet hw
  | some (s, none) => s.meet hw
  | none => s

/-- READ_DATA (R507). -/
def execReadData (port : PortId) (hw : Hw) (s : State) : Host.Outcome State Fault Refusal := .next (s.respondedTo port 8 1 hw)

/-- WRITE_ACK (R515). -/
def execWriteAck (port : PortId) (hw : Hw) (s : State) : Host.Outcome State Fault Refusal := .next (s.respondedTo port 9 2 hw)

/-- ATOMIC_RSP (R507). -/
def execAtomicRsp (port : PortId) (hw : Hw) (s : State) : Host.Outcome State Fault Refusal :=
  .next (s.respondedTo port 10 3 hw)

/-- PAGE_DATA (R507). -/
def execPageData (port : PortId) (hw : Hw) (s : State) : Host.Outcome State Fault Refusal := .next (s.respondedTo port 11 4 hw)

/-- PAGE_ACK (R515). -/
def execPageAck (port : PortId) (hw : Hw) (s : State) : Host.Outcome State Fault Refusal := .next (s.respondedTo port 12 5 hw)

end Sys2Proof.Machine
end

