-- ==== Sys2Proof/Machine/Builder.lean ====
section
/-! DEFINITION. Machine/Builder.lean: BUILD_TABLES and PACK_DELTAS (R245 to R256, R275, R277). Both read and write only
the chimney of their cell. -/

namespace Sys2Proof.Machine

/-- Code j of block i of a tile that lies in memory (R203, R242). -/
def State.memCodes (s : State) (tile : Nat) (f : WFmt) (i : Nat) : List Nat :=
  let w := f.blockWidth i
  let bytes := s.memRead (tile + f.blockOffset i) (f.rawBytes i)
  (countFrom 0 4096).map fun j =>
    if w = 16 then imageNat bytes (2 * j) 2 else if w = 8 then imageNat bytes j 1
    else imageNat bytes (j / 2) 1 / (if j % 2 = 0 then 1 else 16) % 16

/-- The block area's place within a stream of T tiles (R245): A. -/
def areaOffset (f : WFmt) (tiles : Nat) : Nat := (64 + 4 * (tiles * f.blocks) + 127) / 128 * 128

/-- The 32 counts of one kind of a histogram record (R253). -/
def histogramAt (l : List Byte) (kind : Nat) : List Nat := (countFrom 0 32).map fun i => imageNat l (256 * kind + 8 * i) 8

/-- The bytes of a histogram record (R253). -/
def histogramBytes (elem scale : List Nat) : List Byte := (elem ++ scale).flatMap fun v => toBytes 8 v

/-- The counts of one block added (R253, R255): a ZERO block adds nothing. -/
def countBlock (h : List Nat × List Nat) (f : WFmt) (i : Nat) (base var : List Nat) : List Nat × List Nat :=
  if base = var then h
  else if f.blockWidth i = 8 ∧ f = .mxfp4 then (h.1, countSymbols h.2 (f.blockWidth i) base var)
  else (countSymbols h.1 (f.blockWidth i) base var, h.2)

/-- The counts of tiles of a stream (R253). -/
def State.countTiles (s : State) (f : WFmt) (base var first tiles : Nat) (h : List Nat × List Nat) :
    List Nat × List Nat :=
  (countFrom first tiles).foldl (fun h t =>
    (countFrom 0 f.blocks).foldl (fun h i =>
      countBlock h f i (s.memCodes (base + t * f.tileBytes) f i) (s.memCodes (var + t * f.tileBytes) f i)) h) h

/-- A descriptor written in full (R245, R253). -/
def descriptorBytes (f : WFmt) (tag variant baseTag tiles : Nat) (elem scale : List Nat) : List Byte :=
  toBytes 4 tag ++ [byte f.code, byte variant, 0, 0] ++ toBytes 4 tiles ++ toBytes 4 (tiles * f.blocks) ++
    tableBytes elem ++ (if f = .mxfp4 then tableBytes scale else List.replicate 16 0) ++ toBytes 4 baseTag ++
    toBytes 4 0 ++ toBytes 4 0 ++ List.replicate 4 0

/-- n bytes at a global address lie in the chimney of a cell (R134, R256). -/
def State.ownChimney (s : State) (c g n : Nat) : Bool :=
  match s.localOf g with
  | some a => populated a n && chimneyOf a == c
  | none => false

/-- The bytes of a range that a build or pack reads or writes (R256): start, length, and whether it is written. -/
abbrev Extent := Nat × Nat × Bool

/-- No written range overlaps another. -/
def disjoint (l : List Extent) : Bool :=
  let indexed := l.zip (countFrom 0 l.length)
  indexed.all fun x => !x.1.2.2 || indexed.all fun y => x.2 == y.2 || !overlaps x.1.1 x.1.2.1 y.1.1 y.1.2.1

/-- Ranges lie in the cell's chimney, and none that is written overlaps another (R256). -/
def State.extentFault (s : State) (c : Nat) (l : List Extent) : Option QFault :=
  firstFault [firstFault (l.map fun x => failUnless (s.ownChimney c x.1 x.2.1) (ovenFault badAddress 0 x.1)),
    failUnless (disjoint l) (ovenFault badAddress 0 ((l.head?.map Prod.fst).getD 0))]

/-- The tile count that a stream has once a build that names these tiles finishes: up to the last tile named (R253; log
entry 34). -/
def DeltaOps.total (o : DeltaOps) : Nat := o.firstTile.toNat + o.tiles.toNat

/-- CLEAR and FINISH (R253, R409). -/
def DeltaOps.clear (o : DeltaOps) : Bool := o.flags.getLsbD 0
def DeltaOps.finish (o : DeltaOps) : Bool := o.flags.getLsbD 1

/-- The ranges of BUILD_TABLES. -/
def buildExtents (o : DeltaOps) (f : WFmt) : List Extent :=
  let n := o.tiles.toNat * f.tileBytes
  let off := o.firstTile.toNat * f.tileBytes
  [(o.baseStream.toNat + off, n, false), (o.variantFull.toNat + off, n, false), (o.histogram.toNat, 512, true)] ++
    (if DeltaOps.finish o then [(o.descriptor.toNat, 64, true)] else [])

/-- What the Oven checks of BUILD_TABLES (R245, R253, R256, R409). -/
def State.buildCheck (s : State) (x : Issue) (o : DeltaOps) : Option QFault :=
  firstFault [s.cellHeader x 0x38 true, failUnless (wfmtOf o.format).isSome (operandFault 8),
    failUnless (o.variant != 0) (operandFault 9),
    failUnless (!DeltaOps.finish o || o.tensorTag != 0) (operandFault 20),
    alignFault o.baseStream.toNat 128 32, alignFault o.variantFull.toNat 128 40, alignFault o.histogram.toNat 16 48,
    alignFault o.descriptor.toNat 128 56,
    s.extentFault (theCell x.header.mask) (buildExtents o ((wfmtOf o.format).getD .bf16))]

/-- BUILD_TABLES over its tiles (R253, R254, R275). -/
def State.build (s : State) (q : Nat) (o : DeltaOps) (f : WFmt) (hw : Hw) : CellDone :=
  let base := o.baseStream.toNat % 2 ^ 44
  let var := o.variantFull.toNat % 2 ^ 44
  let hist := o.histogram.toNat % 2 ^ 44
  let first := o.firstTile.toNat
  let tiles := o.tiles.toNat
  let a := s.load hw (base + first * f.tileBytes) (tiles * f.tileBytes)
  let b := a.1.load hw (var + first * f.tileBytes) (tiles * f.tileBytes)
  let r := b.1.load hw hist 512
  match a.2, b.2, r.2 with
  | some _, some _, some old =>
    let old := if DeltaOps.clear o then List.replicate 512 0 else old
    let h := r.1.countTiles f base var first tiles (histogramAt old 0, histogramAt old 1)
    let s := r.1.store hw hist (histogramBytes h.1 h.2)
    let s := if DeltaOps.finish o then
        s.store hw (o.descriptor.toNat % 2 ^ 44)
          (descriptorBytes f o.tensorTag.toNat o.variant.toNat o.baseTag.toNat (DeltaOps.total o) (buildTable h.1)
            (buildTable h.2))
      else s
    .ok (s.progress q tiles)
  | _, _, _ => ⟨r.1, {}, none, 1, []⟩

/-- BUILD_TABLES. -/
def execBuildTables (x : Issue) (o : DeltaOps) (s : State) : Host.Outcome State Fault Refusal :=
  .next (s.issue x 0x38 (fun r => readDelta r = o) (fun t _ => t.buildCheck x o)
    fun hw t => t.cellWork hw x fun _ u => u.build x.queue o ((wfmtOf o.format).getD .bf16) hw)

/-- The descriptor of a stream as memory holds it (R245). -/
structure StreamHead where
  tag : Nat
  format : Byte
  tiles : Nat
  blocks : Nat
  elem : List Nat
  scale : List Nat
  area : Nat
  packed : Nat

/-- A code table that R249 calls valid; an invalid one holds no codeword. -/
def validTable (l : List Byte) : List Nat :=
  let t := tableLengths l
  if tableValid t then t else List.replicate 32 0

/-- A descriptor's bytes read (R245). -/
def streamHead (l : List Byte) : StreamHead :=
  { tag := imageNat l 0 4, format := BitVec.ofNat 8 (imageNat l 4 1), tiles := imageNat l 8 4, blocks := imageNat l 12 4
    elem := validTable ((l.drop 16).take 16), scale := validTable ((l.drop 32).take 16)
    area := imageNat l 52 4, packed := imageNat l 56 4 }

/-- One block packed (R255): its index entry and its bytes are written, and block area bytes advances. -/
def State.packOne (s : State) (hw : Hw) (f : WFmt) (o : DeltaOps) (d : StreamHead) (t : Nat) (area i : Nat) : State × Nat :=
  let w := f.blockWidth i
  let desc := o.descriptor.toNat % 2 ^ 44
  let base := s.memCodes (o.baseStream.toNat % 2 ^ 44 + t * f.tileBytes) f i
  let var := s.memCodes (o.variantFull.toNat % 2 ^ 44 + t * f.tileBytes) f i
  let table := if f = .mxfp4 ∧ i = 32 then d.scale else d.elem
  let b := packBlock d.tag (t * f.blocks + i) w table base var
  let s := s.store hw (desc + 64 + 4 * (t * f.blocks + i)) (toBytes 4 (area / 16 * 16 + b.1.bits))
  (s.store hw (desc + areaOffset f d.tiles + area) b.2, area + b.2.length)

/-- Every block of a tile packed. -/
def State.packTile (s : State) (hw : Hw) (f : WFmt) (o : DeltaOps) (d : StreamHead) (area t : Nat) : State × Nat :=
  (countFrom 0 f.blocks).foldl (fun r i => r.1.packOne hw f o d t r.2 i) (s, area)

/-- Tiles packed in order. -/
def State.packTiles (s : State) (hw : Hw) (f : WFmt) (o : DeltaOps) (d : StreamHead) (tiles : Nat) : State × Nat :=
  (countFrom o.firstTile.toNat tiles).foldl (fun r t => r.1.packTile hw f o d r.2 t) (s, d.area)

/-- What the Oven checks of PACK_DELTAS (R245, R255, R256, R409): its bytes 8 to 11 and 20 to 31 are not used. -/
def State.packCheck (s : State) (x : Issue) (o : DeltaOps) : Option QFault :=
  firstFault [s.cellHeader x 0x39 true,
    alignFault o.baseStream.toNat 128 32, alignFault o.variantFull.toNat 128 40, alignFault o.descriptor.toNat 128 56,
    s.extentFault (theCell x.header.mask) [(o.descriptor.toNat, 64, true)]]

/-- The ranges of PACK_DELTAS with its stream at the largest it can take (R256, R267). -/
def packExtents (o : DeltaOps) (f : WFmt) (d : StreamHead) : List Extent :=
  let n := o.tiles.toNat * f.tileBytes
  let off := o.firstTile.toNat * f.tileBytes
  [(o.descriptor.toNat, areaOffset f d.tiles + d.area + n, true), (o.baseStream.toNat + off, n, false),
    (o.variantFull.toNat + off, n, false)]

/-- PACK_DELTAS over its tiles, in the format of the descriptor (R255, R256); tiles packed advances when the command
completes, so that a reset leaves it (R436). -/
def State.pack (s : State) (q : QueueId) (place : Place) (o : DeltaOps) (hw : Hw) (c : Nat) : CellDone :=
  let desc := o.descriptor.toNat % 2 ^ 44
  let first := o.firstTile.toNat
  let tiles := o.tiles.toNat
  let r := s.load hw desc 64
  match r.2 with
  | none => ⟨r.1, {}, none, 1, []⟩
  | some head =>
    let d := streamHead head
    let f := (wfmtOf d.format).getD .bf16
    if (wfmtOf d.format).isNone || decide (d.blocks ≠ d.tiles * f.blocks) || decide (first ≠ d.packed) ||
        decide (d.tiles < first + tiles) then .bad r.1 (ovenFault badAddress 0 o.descriptor.toNat) c
    else
      match r.1.extentFault c (packExtents o f d) with
      | some e => .bad r.1 e c
      | none =>
        let a := r.1.load hw (o.baseStream.toNat % 2 ^ 44 + first * f.tileBytes) (tiles * f.tileBytes)
        let b := a.1.load hw (o.variantFull.toNat % 2 ^ 44 + first * f.tileBytes) (tiles * f.tileBytes)
        if a.2.isNone || b.2.isNone then ⟨b.1, {}, none, 1, []⟩
        else
          let p := b.1.packTiles hw f o d tiles
          .ok (((p.1.store hw (desc + 52) (toBytes 4 p.2)).mapFlight q place fun f =>
            { f with onEnd := f.onEnd ++ [(desc + 56, toBytes 4 (first + tiles))] }).progress q tiles)

/-- PACK_DELTAS. -/
def execPackDeltas (x : Issue) (o : DeltaOps) (s : State) : Host.Outcome State Fault Refusal :=
  .next (s.issue x 0x39 (fun r => readDelta r = o) (fun t _ => t.packCheck x o)
    fun hw t => t.cellWork hw x fun c u => u.pack x.queue x.place o hw c)

end Sys2Proof.Machine
end

