-- ==== Sys2Proof/Machine/Sequencer.lean ====
section
/-! DEFINITION. Machine/Sequencer.lean: the cell sequencers (R432): how they begin the commands that wait in their
sub-queues, once those that kept them waiting have completed. -/

namespace Sys2Proof.Machine

/-- A queue in which commands begin and complete: one that is being reset, or is FAULTED, has none (R436). -/
def State.completes (s : State) (q : Nat) : Bool :=
  s.frontRuns && (s.queue q).state != .resetting && (s.queue q).state != .faulted

/-- What the command of a record does in a cell when it begins there (R406, R407). -/
def State.recordCell (s : State) (x : Issue) (r : List Byte) (c : Nat) : CellDone :=
  let op := recNat r 0 1
  let code := recNat r 8 1
  if op = 0x10 then s.dmaCell x (readDma r) x.hw (Fin.ofNat 16 c)
  else if op = 0x11 then
    if code = 0x10 then s.runInit (readAtomic r) x.hw
    else if code = 0x11 then s.runMerge (readAtomic r) x.hw c
    else s.runAtomic x (readAtomic r) code x.hw (Fin.ofNat 16 c)
  else if op = 0x20 then s.kneadCell x.queue (readKnead r) c
  else if op = 0x21 then s.drainCell x.queue (readDrain r) c
  else if op = 0x22 then s.sieveCell x.queue (readSieve r) code c
  else if op = 0x23 then s.ropeCell x.queue (readRope r) c
  else if op = 0x24 then s.statCell x.queue (readStat r) code c
  else if op = 0x30 then s.appendCell x (readAppend r) x.hw c
  else if op = 0x38 then s.build x.queue (readDelta r) ((wfmtOf (readDelta r).format).getD .bf16) x.hw
  else if op = 0x39 then s.pack x.queue x.place (readDelta r) x.hw c
  else if op = 0x40 then s.reedCell (.run x.queue x.place (readReedRun r) false 0 false) c
  else if op = 0x41 then s.reedCell (.readout x.queue x.place (readReadout r)) c
  else s.reedCell (.program x.queue x.place (readReedProgram r) none) c

/-- A command placed in a cell, as the issue it came from. -/
def SubEntry.issue (e : SubEntry) (q : QueueId) (hw : Hw) : Issue := ⟨q, e.place, headerOf e.record, hw⟩

/-- The first command of a sub-queue may begin (R209, R256, R406); a KV_ATTEND begins in all of its cells together (log entry
120). -/
def State.cellReady (s : State) (c : Nat) (q : QueueId) : Bool :=
  s.completes q &&
    match s.subQueue c q with
    | e :: _ =>
      if recNat e.record 0 1 = 0x31 then (cellsOf (headerOf e.record).mask).all (s.begins q e.place) else s.begins q e.place c
    | [] => false

/-- The queue that a cell sequencer serves next (R432). -/
def State.cellTurn (s : State) (c : Nat) : Option QueueId :=
  let k := s.sequencer c
  if s.cellReady c k.served && !k.sliceOver then some k.served
  else ((countFrom (k.served.val + 1) 64).map fun n => (Fin.ofNat 64 n : QueueId)).find? (s.cellReady c)

/-- A cell sequencer begins the first command of a queue. -/
def State.beginFirst (s : State) (hw : Hw) (c : Nat) (q : QueueId) : State :=
  match s.subQueue c q with
  | e :: _ =>
    let x := e.issue q hw
    let d := if recNat e.record 0 1 = 0x31 then s.beginAttend x (readAttend e.record) hw
      else s.workCells hw x (fun c u => u.recordCell x e.record c) [c]
    match d.fault with
    | some f => d.state.faultInFlight q e.place f
    | none => d.state
  | [] => s

/-- The cell sequencers begin what they can; `n` bounds the commands begun. -/
def State.runSequencers (hw : Hw) : Nat → State → State
  | 0, s => s
  | n + 1, s =>
    match (countFrom 0 16).findSome? fun c => (s.cellTurn c).map fun q => (c, q) with
    | some (c, q) => State.runSequencers hw n (s.beginFirst hw c q)
    | none => s

/-- The cell sequencers begin every command that nothing keeps waiting. -/
def State.sequence (s : State) (hw : Hw) : State :=
  State.runSequencers hw ((s.front.subs.map fun x => x.2.length).foldl (· + ·) 0) s

end Sys2Proof.Machine
end

