-- ==== Sys2Proof/Machine/QueueReset.lean ====
section
/-! DEFINITION. Machine/QueueReset.lean: how commands in flight complete (R406), the watch for stalls (R434), and the
guilty-queue reset (R436 to R441). -/

namespace Sys2Proof.Machine

/-! ### Completion -/

/-- The command in flight at a place. -/
def State.flight (s : State) (q : QueueId) (place : Place) : Option InFlight :=
  (s.work q).inFlight.find? fun f => f.place == place

/-- A command in flight completes (R405, R406). -/
def State.land (s : State) (q : QueueId) (f : InFlight) : State :=
  let w := s.work q
  (s.setWork q { w with inFlight := w.inFlight.filter fun x => x.place != f.place }).finish q f.place f.header

/-- What a command in flight still has to do when its completion comes: a KV_ATTEND its readout (R306), a PACK_DELTAS its
count of tiles packed (R255); and whether it could. -/
def State.lastWork (s : State) (hw : Hw) (q : QueueId) (f : InFlight) : State × Bool :=
  match f.attend with
  | some l => s.readout hw q f.place f.header.mask l
  | none => (f.onEnd.foldl (fun (s : State) w => s.store hw w.1 w.2) s, true)

/-- A command in flight ends in the cells where it has begun (R406): where it has begun in all of them, it completes. -/
def State.endCommand (s : State) (hw : Hw) (q : QueueId) (f : InFlight) : State :=
  let cells := cellsOf f.header.mask
  if cells.any fun c => s.placed c q f.place then
    s.mapFlight q f.place fun f => { f with ended := cells.filter fun c => !s.placed c q f.place }
  else
    let r := s.lastWork hw q f
    if r.2 then r.1.land q f else r.1

/-- COMMAND_COMPLETION (R406): a programming applies pulses (R378), a readout that waited is done (R369), and its end completes
the command with the rest. A command that still waits for something goes on waiting. Commands that waited for this one begin
(R432). -/
def execCommandCompletion (queue : QueueId) (place : Place) (pulses : List PulseIteration) (hw : Hw) (s : State) :
    Host.Outcome State Fault Refusal :=
  .next (if s.completes queue then
      let s := (s.runPulses queue place pulses).runReadout hw queue place
      match s.flight queue place with
      | some f => (if f.waitsFor = 0 ∧ f.fetches = [] then (s.endCommand hw queue f).sequence hw else s).meet hw
      | none => s
    else s)

/-! ### The watch -/

/-- An array waits for a frame target (R373). -/
def State.frameWaits (s : State) (c : Nat) : Bool :=
  match s.reedOps c with
  | .run _ _ o false _ _ :: _ => !s.frameReached o.frame.toNat
  | _ => false

/-- A command in flight that only waits for a frame target (R373, R434): all that it waits for are operations of arrays that
wait for one. -/
def State.waitsForFrame (s : State) (q : QueueId) (f : InFlight) : Bool :=
  let blocked := (countFrom 0 16).flatMap fun c =>
    if s.frameWaits c then (s.reedOps c).filter fun op => op.queue == q && op.place == f.place else []
  decide (0 < f.waitsFor) && f.waitsFor == blocked.length

/-- The queue is busy (R434). -/
def State.busy (s : State) (q : QueueId) : Bool :=
  ((s.work q).inFlight.any fun f => !s.waitsForFrame q f) || s.runnable q

/-- Recipe, node, ring position and opcode that a STALL names: those of the oldest command in flight. -/
def State.stalledAt (s : State) (q : QueueId) : Place × Nat :=
  (((s.work q).inFlight.head?).map fun f => (f.place, f.opcode)).getD (.ring (s.queue q).head.toNat, 0xFF)

/-- A queue is declared stalled (R434). -/
def State.stall (s : State) (q : QueueId) : State :=
  let p := s.queue q |>.progress
  let s := s.setQueue q { s.queue q with stalled := true }
  let s := (s.bump 0x6000 0x32 0 1).raise 0x0402 sevWarning ([byte q, 0, 0, 0] ++ toBytes 4 p.toNat)
  if s.led 0x6000 0x13 = 1 then
    let a := s.stalledAt q
    s.faultAt q a.1 a.2 (ovenFault stalledCause p.toNat)
  else s

/-- The end of a watch period for one queue (R434). -/
def State.watch (s : State) (q : QueueId) : State :=
  let w := s.work q
  let p := (s.queue q).progress
  let n := if s.busy q && w.watchProgress == p then w.watchPeriods + 1 else 0
  if s.led 0x6000 0x12 ≤ n then (s.setWork q { w with watchProgress := p, watchPeriods := 0 }).stall q
  else s.setWork q { w with watchProgress := p, watchPeriods := n }

/-- WATCH_PERIOD. -/
def execWatchPeriod (s : State) : Host.Outcome State Fault Refusal :=
  .next (if s.frontRuns then (List.finRange 64).foldl (fun (s : State) q => s.watch q) s else s)

/-! ### The guilty-queue reset -/

/-- The record that the Oven would issue next for a queue, with its place. -/
def State.nextRecord (s : State) (q : QueueId) : Option (Place × List Byte) :=
  match (s.work q).bakes.find? fun b => b.next.isSome with
  | some b => b.next.bind fun i => (b.records[i]?).bind fun r => if s.mayGo q r then some (.node b.number i, r) else none
  | none =>
    if s.mayFetch q && !(s.queue q).ringHost then
      match s.headRecord q with
      | some r => if s.mayGo q r then some (.ring (s.queue q).head.toNat, r) else none
      | none => none
    else none

/-- A ring of this device whose record at HEAD lies where no ring may lie (R403, R435). -/
def State.badRing (s : State) (q : QueueId) : Bool :=
  s.mayFetch q && !(s.queue q).ringHost && (s.headRecord q).isNone && !s.nodeReady q

/-- Step 1 of the reset for a record that no command spells, when it is the queue's turn (log entry 28). -/
def State.refuseNext (s : State) (q : QueueId) : State :=
  if s.turn = some q.val then
    if s.badRing q then
      let x := s.queue q
      (s.take q (.ring x.head.toNat)).faultAt q (.ring x.head.toNat) 0xFF
        (ovenFault badCaching 0 (x.recordAddress x.head.toNat))
    else
      match s.nextRecord q with
      | some (place, r) =>
        match s.refusedRecord q r with
        | some f => (s.take q place).faultAt q place (recNat r 0 1) f
        | none => s
      | none => s
  else s

/-- A response that belonged to a queue now answers nothing (R436). -/
def Waiter.disown (q : QueueId) (w : Waiter) : Waiter :=
  match w with
  | .copy p _ _ => if p = q then .write q noPlace else w
  | .write p _ => if p = q then .write q noPlace else w
  | .append p _ l e g r => if p = q then .append q noPlace l e g r else w
  | .atomic p _ _ _ _ _ _ => if p = q then .write q noPlace else w
  | .page p _ _ _ _ _ _ => if p = q then .write q noPlace else w
  | .rows _ _ => w

/-- The queue of a waiter; the runtime's own requests belong to none. -/
def Waiter.queue : Waiter → Option QueueId
  | .copy q _ _ => some q
  | .write q _ => some q
  | .append q _ _ _ _ _ => some q
  | .atomic q _ _ _ _ _ _ => some q
  | .page q _ _ _ _ _ _ => some q
  | .rows _ _ => none

/-- Requests of a queue: those of which something has left are awaited and their data discarded; the others, which no device has
accepted, are dropped (R191, R436). -/
def State.disownPort (s : State) (q : QueueId) (p : PortId) : State :=
  let l := s.link p
  let x := s.port p
  let unsent := (x.waiting.filter fun w => !w.begun).filterMap Waiting.tag
  let dropped := (l.outstanding.filter fun o => Waiter.queue o.waiter == some q && decide (o.tag ∈ unsent)).map Outstanding.tag
  let s := s.setLink p { l with
    outstanding := (l.outstanding.filter fun o => decide (o.tag ∉ dropped)).map fun o =>
      { o with waiter := Waiter.disown q o.waiter }
    queue := l.queue.filter fun x => Waiter.queue x.2.waiter != some q }
  if dropped = [] then s
  else s.setPort p { x with waiting := x.waiting.filter fun w => w.begun || (w.tag.map fun t => decide (t ∉ dropped)).getD true }

/-- Step 4: lanes, statistics rows, Reed slots and the error bits of a queue (R228, R392, R416, R436). -/
def State.clearQueue (s : State) (q : QueueId) : State :=
  let x := s.queue q
  let first := x.laneFirst.toNat
  let lanes := min x.laneCount.toNat (256 - first)
  let s := (countFrom 0 16).foldl (fun (s : State) c => { s with cells := { s.cells with
      acc := s.cells.acc.clear (c * 2 ^ 17 + first * 512) (lanes * 512)
      stat := s.cells.stat.clear (c * 4096 + 16 * first) (16 * lanes) } }) s
  (countFrom x.eventBase.toNat x.eventCount.toNat).foldl (fun (s : State) c => s.errCounter c) (s.reedReset q)

/-- Every step that a queue runs is lost with it (R27): the runtime keeps the queue fault record. -/
def State.loseSteps (s : State) (q : QueueId) : State :=
  { s with runtime := { s.runtime with
      steps := s.runtime.steps.map fun t => if t.queue = q ∧ t.lost = none then { t with lost := some (s.queue q).faultRecord } else t } }

/-- Steps 2 to 5 (R436): what the queue had in hand is discarded, in every cell too, and it is FAULTED. -/
def State.guiltyReset (s : State) (q : QueueId) : State :=
  let w := s.work q
  let s := s.loseSteps q
  let s := (List.finRange 8).foldl (fun (s : State) p => s.disownPort q p) s
  let s := (countFrom 0 16).foldl (fun (s : State) c => s.setSubQueue c q []) s
  let s := s.setWork q { w with
    submissions := [], inFlight := [], waits := [], bakes := [], proofer := none, held := false, watchPeriods := 0
    blocks := [] }
  let s := s.clearQueue q
  let x := s.queue q
  let s := s.setQueue q { x with head := x.tail, wakes := 0, state := .faulted }
  ((s.bump 0x6000 0x30 q 1).raise 0x0401 sevInfo (x.faultRecord.take 12)).msix 3

/-- GUILTY_QUEUE_RESET: the commands of other queues that waited for those of this one begin (R432). -/
def execGuiltyQueueReset (queue : QueueId) (hw : Hw) (s : State) : Host.Outcome State Fault Refusal :=
  .next (if s.frontRuns then
      let s := if (s.queue queue).state = .resetting then s else s.refuseNext queue
      if (s.queue queue).state = .resetting then ((s.guiltyReset queue).sequence hw).meet hw else s
    else s)

/-- RESET_QUIESCE_TIMEOUT: a queue that is still RESETTING 100 µs after its fault halts the device (R436, R677), or fails
the start with the unit that has not quiesced (R735). -/
def execResetQuiesceTimeout (queue : QueueId) (unit : FrontEndUnit) (s : State) : Host.Outcome State Fault Refusal :=
  .next (if s.frontRuns && (s.queue queue).state == .resetting then
      s.classD haltQuiesce (frontEndNumber unit) (frontEndNumber unit) ([byte queue, 0, 0, 0] ++ (s.queue queue).faultRecord.take 4)
    else s)

end Sys2Proof.Machine
end

