-- ==== Sys2Proof/Machine/Pcie.lean ====
section
/-! DEFINITION. Machine/Pcie.lean: the endpoint (chapter 15): link and configuration, writes of BAR0, the BAR2 window, TIME,
failed requests to the host. -/

namespace Sys2Proof.Machine

/-! ### Link and configuration -/

/-- The host reaches the endpoint's BARs: the link is up, decoding is not disabled (R538, R539), and clocks run (R90). -/
def State.decodes (s : State) : Bool := s.pcie.enabled && s.pcie.up && !s.pcie.d3hot && !s.power.clocksStopped

/-- A host-bound read of a command in flight fails (R549): counted, and its queue faults with BAD_ADDRESS. -/
def State.failRead (s : State) (q : QueueId) (place : Place) (addr : Nat) : State :=
  s.hostFailure.faultInFlight q place (ovenFault badAddress 0 addr)

/-- Every host-bound read that is outstanding fails (R549, R554, R561). -/
def State.failHostReads (s : State) : State :=
  (List.finRange 64).foldl (fun (s : State) (q : QueueId) =>
    (s.work q).inFlight.foldl (fun (s : State) f =>
      match f.hostReads with
      | [] => s
      | a :: t => t.foldl (fun (s : State) _ => s.hostFailure) (s.failRead q f.place a)) s) s

/-- The link goes down (R538, R554): configuration space is reset, and outstanding requests fail. -/
def State.dlDown (s : State) : State := if s.pcie.up then s.linkLost.failHostReads.yield else s

/-- PERST_N_ASSERT (R104, R538, R561): only the endpoint and the link are reset. -/
def execPerstNAssert (s : State) : Host.Outcome State Fault Refusal :=
  .next ({ s with life := { s.life with perstHigh := false } }).dlDown

/-- PERST_N_RELEASE (R104, R115). -/
def execPerstNRelease (peat : Option Word) (s : State) : Host.Outcome State Fault Refusal :=
  .next (let s := { s with life := { s.life with perstHigh := true } }
    if s.power.inWindow.vaux33 ∧ s.power.clocksStopped = false then s.peatEndpoint peat else s)

/-- DL_DOWN (R554). -/
def execDlDown (s : State) : Host.Outcome State Fault Refusal := .next s.dlDown

/-- Rates and widths that train (R534, R555): x16 or x8, no faster than the speed limit, 64 GT/s only in Flit mode. -/
def State.linkTrains (s : State) (speed width : Nat) (flit : Bool) : Bool :=
  s.pcie.enabled && !s.power.clocksStopped && s.life.perstHigh && !s.pcie.up && between 1 speed (s.led 0x7800 0x05) && (width == 8 || width == 16) &&
    (flit || speed != 6)

/-- PCIE_LINK_UP (R104, R534, R554). -/
def execPcieLinkUp (speed : BitVec 3) (width : BitVec 5) (flit : Bool) (s : State) : Host.Outcome State Fault Refusal :=
  .next (if s.linkTrains speed.toNat width.toNat flit then
      ({ s with pcie := { s.pcie with up := true, speed := speed, width := width, flit := flit } }).raise 0x0605 sevInfo
        [byte speed.toNat, byte width.toNat, byte flit.toNat]
    else s)

/-- D3HOT (R539). -/
def execD3hot (s : State) : Host.Outcome State Fault Refusal :=
  .next (if s.decodes then { s with pcie := { s.pcie with d3hot := true } } else s)

/-- RETURN_TO_D0 (R539, R552). -/
def execReturnToD0 (s : State) : Host.Outcome State Fault Refusal :=
  .next (if s.pcie.up ∧ s.pcie.d3hot ∧ s.power.clocksStopped = false then ({ s with pcie := { s.pcie with d3hot := false } }).flushMsix else s)

/-- BAR2_RESIZE (R547): sizes 2^30 to 2^37. -/
def execBar2Resize (size : Nat) (s : State) : Host.Outcome State Fault Refusal :=
  .next (if s.pcie.up ∧ between 30 size 37 then { s with pcie := { s.pcie with bar2Log := size } } else s)

/-- MSI_X_ENABLE (R552). -/
def execMsiXEnable (enable functionMask : Bool) (s : State) : Host.Outcome State Fault Refusal :=
  .next (if s.pcie.up then
      ({ s with pcie := { s.pcie with msixEnable := enable, functionMask := functionMask } }).flushMsix
    else s)

/-- A reported error (R553): its severity's counter, 0x7800:11 correctable or 0x7800:12 non-fatal, and its bit of the AER
Uncorrectable Error Status register (log entry 58). -/
def State.aerError (s : State) (sub statusBit : Nat) : State :=
  { s.bump 0x7800 sub 0 1 with pcie := { s.pcie with aerStatus := s.pcie.aerStatus ||| (1 : Word) <<< statusBit } }

/-- AER status bits (log entry 58). -/
def aerPoisoned : Nat := 12
def aerTimeout : Nat := 14
def aerAbort : Nat := 15
def aerUnsupported : Nat := 20

/-- COMPLETION_TIMEOUT (R549, R553): a host-bound read that the command at a place waits for. -/
def execCompletionTimeout (queue : QueueId) (place : Place) (s : State) : Host.Outcome State Fault Refusal :=
  .next (match (s.flight queue place).map InFlight.hostReads with
    | some (a :: _) => (s.aerError 0x12 aerTimeout).failRead queue place a
    | _ => s)

/-! ### TIME -/

/-- TIME_LO_READ (R546). -/
def execTimeLoRead (path : AccessPath) (s : State) : Host.Outcome State Fault Refusal :=
  .next (let open_ : Bool := match path with
      | .host => s.barOpen
      | .core _ => s.frontRuns
    if open_ then
      { s with pcie := { s.pcie with timeHi := s.pcie.timeHi.set 0 (pathNumber path) (BitVec.ofNat 32 (s.time.toNat / 2 ^ 32)) } }
    else s)

/-! ### The mailbox blocks -/

/-- The offsets of a mailbox block that BUSY holds (R589). -/
def heldWhileBusy (off : Nat) : Bool :=
  off == 0x000 || off == 0x008 || off == 0x00C || off == 0x010 || off == 0x018 || between 0x100 off 0x7FF

/-- A dword written to a mailbox block (R588, R589); GO submits. -/
def Mailbox.write (m : Mailbox) (off : Nat) (v : Word) : Mailbox :=
  if m.state = 1 ∧ heldWhileBusy off then { m with mbxErr := true }
  else if off = 0x000 then (if v.getLsbD 0 then { m with state := 1 } else m)
  else if off = 0x004 then { m with mbxErr := m.mbxErr && !v.getLsbD 4 }
  else if off = 0x008 then
    { m with command := v.setWidth 8, sub := (v >>> 8).setWidth 8, index := (v >>> 16).setWidth 16 }
  else if off = 0x00C then { m with first := v.setWidth 16, count := (v >>> 16).setWidth 16 }
  else if off = 0x010 then { m with reqLength := v.setWidth 16 }
  else if off = 0x018 then { m with tag := v.setWidth 16 }
  else if between 0x100 off 0x7FF then { m with request := Sparse.write 0 m.request (off - 0x100) (toBytes 4 v.toNat) }
  else m

/-- A write of the BAR0 mailbox; while Uhleg restarts, a GO is answered BUSY at once (R594). -/
def State.writeMailbox (s : State) (off : Nat) (v : Word) : State :=
  let s := { s with mailbox := s.mailbox.write off v }
  match s.uhleg.phase with
  | .restarting _ => s.busyMailboxes
  | _ => s

/-! ### BAR0 -/

/-- The device control block (R541, R546): W1C flags, counters that take only zero, the window base. -/
def State.writeControlBlock (s : State) (off : Nat) (v : Word) : State :=
  let p := s.pcie
  if off = 0x0C then
    { s with pcie := { p with
        accessErr := p.accessErr && !v.getLsbD 0, hostReqErr := p.hostReqErr && !v.getLsbD 1 } }
  else if off = 0x18 then (if v = 0 then { s with pcie := { p with accessErrCount := 0 } } else s)
  else if off = 0x1C then (if v = 0 then { s with pcie := { p with hostErrCount := 0 } } else s)
  else if off = 0x20 then { s with pcie := { p with windowLo := (v >>> 30).setWidth 2 } }
  else if off = 0x24 then { s with pcie := { p with windowHi := v.setWidth 5 } }
  else s

/-- The serving register block (R457, R458, R542). MODEL_CMD = REGISTER is the row REGISTER's, which carries what the
runtime finds in the manifest. -/
def State.writeServing (s : State) (off : Nat) (v : Word) : State :=
  if off = 0x1C then (if s.doorbellActs .host then s.writeReqTail v else s)
  else if s.reachesServing .host = false then s
  else if off = 0x08 then s.writeRingEnable v
  else if off = 0x38 then s.writeTokHead v
  else if off = 0x40 then (if s.runtimeRuns then s.grantUserq v else s)
  else if off = 0x50 then
    (if v.toNat % 4 = 2 ∧ s.runtimeRuns then s.unregister else s)
  else s.writeServePlain off v

/-- The bits of a byte of the MSI-X table that are not reserved: of Vector Control, bits 31 to 1 are (R10). -/
def msixBits (i : Nat) : Byte := if i % 16 < 12 then 0xFF else if i % 16 = 12 then 1 else 0

/-- One byte of the MSI-X table written. -/
def State.setMsixByte (s : State) (i : Nat) (b : Byte) : State :=
  { s with pcie := { s.pcie with msixTable := s.pcie.msixTable.put i (b &&& msixBits i) } }

/-- The MSI-X table (R552): a vector unmasked here is sent if it is pending. -/
def State.writeMsix (s : State) (off : Nat) (v : Word) : State :=
  let t : State := ((countFrom off 4).zip (toBytes 4 v.toNat)).foldl (fun (s : State) x => s.setMsixByte x.1 x.2) s
  t.flushMsix

/-- A plain register of a queue block (R402, R403): the ring's registers are held while ENABLE is 1. -/
def State.writeQueuePlain (s : State) (q : QueueId) (off : Nat) (v : Word) : State :=
  let x := s.queue q
  let put (y : Queue) : State := s.setQueue q y
  if off = 0x04 then
    put { x with
      stalled := x.stalled && !v.getLsbD 3, doorbellErr := x.doorbellErr && !v.getLsbD 4, waitErr := x.waitErr && !v.getLsbD 5 }
  else if off = 0x08 ∨ off = 0x0C then
    (if x.enable then s else put { x with ringBase := withDword x.ringBase (off == 0x0C) v })
  else if off = 0x10 then (if x.enable then s else put { x with ringLog2 := v.setWidth 5 })
  else if off = 0x28 then put { x with arithFlags := x.arithFlags &&& ~~~(v.setWidth 5) }
  else if off = 0x2C then (if v = 0 then put { x with progress := 0 } else s)
  else if off = 0x30 then (if v = 0 then put { x with completed := 0 } else s)
  else s

/-- Step 1 of a guilty-queue reset that a register write commands (R402, R436); the detail says which path (log entry
14). -/
def State.commandReset (s : State) (q : QueueId) (detail : Nat) : State :=
  s.faultQueue q 0xFF 0xFFFF 0xFFFF (s.queue q).head.toNat (ovenFault commanded detail)

/-- A queue register block (R402). -/
def State.writeQueueBlock (s : State) (q : QueueId) (off : Nat) (v : Word) : State :=
  if off = 0x1C then (if s.doorbellActs .host then s.ringDoorbell q v else s)
  else if s.reaches .host = false then s
  else if off = 0x00 then s.writeControl q v
  else if off = 0x60 then (if v.getLsbD 0 then s.restartQueue q else s)
  else if off = 0x64 then (if v.getLsbD 0 ∧ s.frontRuns then s.commandReset q 0x100 else s)
  else s.writeQueuePlain q off v

/-- An event counter's registers (R417). -/
def State.writeCounterBlock (s : State) (c off : Nat) (v : Word) : State :=
  if s.reaches .host = false then s
  else if off = 8 ∨ off = 12 then
    let r := s.latchLow (lowKey c .host 0) (if off = 8 then some v else none) (if off = 12 then some v else none)
    (r.2.map fun n => r.1.advanceCounter c n).getD r.1
  else if off = 16 ∨ off = 20 then
    let r := s.latchLow (lowKey c .host 1) (if off = 16 then some v else none) (if off = 20 then some v else none)
    (r.2.map fun n => r.1.setEvent c n).getD r.1
  else s

/-- One dword written to BAR0 (R540, R542, R560). -/
def State.writeBar0 (s : State) (off : Nat) (v : Word) : State :=
  if between 0x10000 off 0x10FFF then s.writeMailbox (off % 0x1000) v
  else if s.life.state = .peat then s
  else if off < 0x1000 then s.writeControlBlock off v
  else if off < 0x2000 then s.writeServing (off % 0x1000) v
  else if between 0x20000 off 0x20FFF then s.writeMsix (off % 0x1000) v
  else if between 0x100000 off 0x103FFF then s.writeQueueBlock (Fin.ofNat 64 (off % 0x4000 / 256)) (off % 256) v
  else if between 0x200000 off 0x21FFFF then s.writeCounterBlock (off % 0x20000 / 32) (off % 32) v
  else s

/-- The dwords of a write in a form of R544: one dword, or an aligned pair, with every byte enabled. -/
def barDwords (w : BarWrite) : Option (List (Nat × Word)) :=
  let full : Bool := w.bytes.all fun b => b.isSome
  let l := w.bytes.map fun b => b.getD 0
  let word (i : Nat) : Nat × Word := (w.offset + 4 * i, BitVec.ofNat 32 (ofBytes ((l.drop (4 * i)).take 4)))
  if full ∧ l.length = 4 ∧ w.offset % 4 = 0 then some [word 0]
  else if full ∧ l.length = 8 ∧ w.offset % 8 = 0 then some [word 0, word 1]
  else none

/-- The byte enables of a write: of its first dword in [3:0], of its last in [7:4] when it has more than one (R541). -/
def barEnables (w : BarWrite) : Nat :=
  let pad := List.replicate (w.offset % 4) false ++ w.bytes.map fun b => b.isSome
  let last := (pad.length - 1) / 4
  let nibble (k : Nat) : Nat := ((countFrom 0 4).map fun i => ((pad[4 * k + i]?).getD false).toNat * 2 ^ i).foldl (· + ·) 0
  nibble 0 + (if last = 0 then 0 else 16 * nibble last)

/-- A write that is discarded whole (R545). -/
def State.discardBar0 (s : State) (w : BarWrite) : State :=
  { s with pcie := { s.pcie with
      accessErr := true
      accessErrOffset := BitVec.ofNat 26 (w.offset / 4 * 4)
      accessErrBe := byte (barEnables w)
      accessErrCount := advanceCnt s.pcie.accessErrCount 1 } }

/-- A write of BAR0 (R542, R544, R545, R553): a poisoned one is discarded; in PEAT only the mailbox answers. -/
def State.hostWriteBar0 (s : State) (w : BarWrite) : State :=
  if w.poisoned then s.aerError 0x12 aerPoisoned
  else
    match barDwords w with
    | some l => l.foldl (fun (s : State) x => s.writeBar0 x.1 x.2) s
    | none => if s.life.state = .peat ∧ !between 0x10000 w.offset 0x10FFF then s else s.discardBar0 w

/-- BAR0_REGISTER_WRITE (R540 to R546). -/
def execBar0RegisterWrite (w : BarWrite) (s : State) : Host.Outcome State Fault Refusal :=
  .next (if s.decodes ∧ w.offset + w.bytes.length ≤ 0x4000000 then s.hostWriteBar0 w else s)

/-! ### BAR2 -/

/-- The local address of a BAR2 offset (R547). -/
def State.windowAddress (s : State) (offset : Nat) : Nat :=
  let base := s.pcie.windowHi.toNat * 2 ^ 32 + s.pcie.windowLo.toNat * 2 ^ 30
  base / 2 ^ s.pcie.bar2Log * 2 ^ s.pcie.bar2Log + offset

/-- The window is open for reads and writes (R99). -/
def State.windowOpen (s : State) : Bool := s.serving || (s.life.state == .starting && decide (6 < s.life.stage))

/-- The window is open for reads after a halt that left memory readable (R99). -/
def State.haltedReadable (s : State) : Bool := s.life.state == .halted && s.led 0x1100 0x09 == 1

/-- A BAR2 request that cannot be served (R548). -/
def State.unserved (s : State) : State := s.bump 0x7800 0x15 0 1

/-- A read completed with UR (R548, R553). -/
def State.readUnsupported (s : State) : State := (s.unserved.aerError 0x11 aerUnsupported).emit .bar2Unsupported

/-- A read after a halt (R167, R548): from DRAM; an uncorrectable granule completes it with CA. -/
def State.readHalted (s : State) (a n : Nat) (hw : Hw) : State :=
  let all := granulesOf a n
  let s := s.readErrors (hw.mem.filter fun e => decide (e.granule ∈ all))
  if s.intact all then s.emit (.bar2Data (s.memRead a n))
  else (s.unserved.aerError 0x12 aerAbort).emit .bar2Abort

/-- A read through BAR2 (R548): one that an uncorrectable error withholds never completes. -/
def State.readBar2 (s : State) (a n : Nat) (hw : Hw) : State :=
  if populated a n = false then s.readUnsupported
  else if s.windowOpen then
    match s.load hw a n with
    | (s, some l) => s.emit (.bar2Data l)
    | (s, none) => s
  else if s.haltedReadable then s.readHalted a n hw
  else s.readUnsupported

/-- BAR2_READ (R547, R548, R557). -/
def execBar2Read (offset length : Nat) (hw : Hw) (s : State) : Host.Outcome State Fault Refusal :=
  .next (if s.decodes ∧ 0 < length ∧ offset + length ≤ 2 ^ s.pcie.bar2Log
    then s.overFabric hw fun t => t.readBar2 (t.windowAddress offset) length hw else s)

/-- A write through BAR2 (R548). -/
def State.writeBar2 (s : State) (a : Nat) (w : BarWrite) (hw : Hw) : State :=
  if w.poisoned then s.aerError 0x12 aerPoisoned
  else if populated a w.bytes.length ∧ s.windowOpen then s.storeEnabled hw a w.bytes
  else s.unserved

/-- BAR2_WRITE (R547, R548). -/
def execBar2Write (w : BarWrite) (hw : Hw) (s : State) : Host.Outcome State Fault Refusal :=
  .next (if s.decodes ∧ w.offset + w.bytes.length ≤ 2 ^ s.pcie.bar2Log
    then s.overFabric hw fun t => t.writeBar2 (t.windowAddress w.offset) w hw else s)

end Sys2Proof.Machine
end

