-- ==== Sys2Proof/Machine/Writes.lean ====
section
/-! DEFINITION. Machine/Writes.lean: the checks of a Ledger request (R569), and what a write does by its entry (chapters 04,
05, 09, 10, 16, 17 and 18). -/

namespace Sys2Proof.Machine

/-! ### Abort codes (R569) -/

def abortBadCommand : Nat := 0x01
def abortTransfer : Nat := 0x02
def abortTooLarge : Nat := 0x03
def abortNoEntry : Nat := 0x04
def abortUnavailable : Nat := 0x05
def abortReadOnly : Nat := 0x06
def abortWrongState : Nat := 0x07
def abortLocked : Nat := 0x08
def abortRange : Nat := 0x09
def abortSize : Nat := 0x0A
def abortValue : Nat := 0x0B
def abortCounter : Nat := 0x0C
def abortRefused : Nat := 0x0D
def abortPersist : Nat := 0x0E

/-! ### Values of a home chapter -/

/-- A descriptor's own fields outside R278, with their offsets. -/
def Pool.fieldBad (d : Pool) : Option Nat :=
  if d.size ∉ [64, 128, 256, 512] then some 0
  else if !between 1 d.layers 256 then some 2
  else if !between 1 d.heads 64 then some 4
  else if !between 1 d.group 64 || decide (256 < d.heads * d.group) then some 5
  else if d.dim ≠ 128 ∧ d.dim ≠ 256 then some 6
  else if d.mask = 0 then some 8
  else if d.frames = 0 then some 12
  else if d.base % 128 ≠ 0 then some 16
  else if d.stride % 128 ≠ 0 then some 24
  else if d.table % 128 ≠ 0 then some 32
  else if !between 1 d.names (2 ^ 25 - 1) then some 40
  else none

/-- The chimney spans of a pool's frames, one of each layer (R279). -/
def Pool.spans (d : Pool) : List (Nat × Nat) :=
  (countFrom 0 d.layers).map fun l => (d.base + l * d.stride, d.frames * (d.size * d.row))

/-- The frames of a pool meet the frames or the page table of another in a chimney both use (R280). -/
def Pool.meets (d o : Pool) : Bool :=
  decide (d.mask &&& o.mask ≠ 0) && d.spans.any fun a =>
    ((4 * o.names, o.table) :: o.spans.map fun b => (b.2, b.1)).any fun b => overlaps a.1 a.2 b.2 b.1

/-- Why a descriptor of pool p is refused, by the offset of the field that breaks R280; the fields of an unconfigured pool
are not judged. -/
def State.poolBad (s : State) (p v : Nat) : Option Nat :=
  let d := poolOf v
  if d.size = 0 then none
  else
    match d.fieldBad with
    | some i => some i
    | none =>
      if d.stride < d.frames * (d.size * d.row) then some 24
      else if 0x180000000 < d.base + d.layers * d.stride then some 16
      else if d.cells.any fun c => decide (s.led 0x3400 0x01 c * 2 ^ 20 < d.table + 4 * d.names) then some 32
      else if (countFrom 0 8).any fun o => o != p && ((s.pool o).map d.meets).getD false then some 16
      else none

/-- A descriptor without its reserved bytes, which read zero (R10, R278). -/
def poolMasked (v : Nat) : Nat := bits v 0 80 + bits v 96 256 * 2 ^ 96

/-- The recipe store lies in one chimney's populated range (0x6000:20, 0x6000:21). -/
def recipeStoreOk (base size : Nat) : Bool :=
  base % 4096 == 0 && decide (base < 2 ^ 47) && populated (base % 2 ^ 44) (size * 2 ^ 20)

/-- The offset, within one written value, at which the type or the home chapter refuses it; `e` is the element. -/
def State.valueBad (s : State) (en : Entry) (index e v : Nat) (bytes : List Byte) : Option Nat :=
  let bad (ok : Bool) : Option Nat := if ok then none else some 0
  match en.ty with
  | .bool => bad (decide (v ≤ 1))
  | .str32 => str32Bad bytes
  | _ =>
    if en.kind ≠ .plain then none
    else if index = 0x3400 ∧ en.sub = 0x01 then bad (between 16 v 1024 && v % 16 == 0)
    else if index = 0x5000 ∧ between 0x10 en.sub 0x17 then s.poolBad (en.sub - 0x10) v
    else if index = 0x5400 ∧ en.sub = 0x11 then bad (decide (s.led 0x5400 0x10 e ≤ v))
    else if index = 0x6000 ∧ en.sub = 0x20 then bad (recipeStoreOk v (s.led 0x6000 0x21))
    else if index = 0x6000 ∧ en.sub = 0x21 then bad (between 16 v 1024 && recipeStoreOk (s.led 0x6000 0x20) v)
    else if index = 0x8000 ∧ en.sub = 0x31 then
      if !between 1 (imageNat bytes 96 4) 480 then some 96
      else ((bytes.drop 100).findIdx? (· != 0)).map (100 + ·)
    else bad (numberOk index en.sub v)

/-- The offset of the first bad value among the elements written (R569). -/
def State.firstBad (s : State) (r : Request) (en : Entry) : Option Nat :=
  (countFrom 0 (r.elements en)).findSome? fun i =>
    (s.valueBad en r.index (r.first + i) (r.value en i) ((r.data.drop (i * en.ty.size)).take en.ty.size)).map
      (i * en.ty.size + ·)

/-- The element at which a counter or maximum entry is written other than zero (R565). -/
def Request.nonZero (r : Request) (en : Entry) : Option Nat :=
  if en.kind = .plain then none
  else ((countFrom 0 (r.elements en)).find? fun i => r.value en i != 0).map (r.first + ·)

/-! ### The checks of R569 -/

/-- An index that PEAT serves (R114, R570); 0x9000 only to the holder of the unlock. -/
def State.peatServes (s : State) (r : Request) : Bool :=
  decide (r.index ∈ [0x1000, 0x1100, 0x2000, 0x2100, 0x8000]) ||
    (r.index == 0x9000 && s.unlock.holder != 0 && s.unlock.holder.toNat == r.path)

/-- The checks up to UNAVAILABLE, which DESCRIBE passes too (R568). -/
def State.commonAbort (s : State) (r : Request) : Option (Nat × Nat) :=
  if !between 1 r.command 3 || r.reserved || (r.command != 2 && r.length != 0) then some (abortBadCommand, 0)
  else if r.command = 2 ∧ r.writeLimit < r.length then some (abortTooLarge, r.writeLimit)
  else
    match findEntry r.index r.sub with
    | none => some (abortNoEntry, 0)
    | some en =>
      if r.command = 1 ∧ r.rangeOk en ∧ r.readLimit < r.implied en then some (abortTooLarge, r.readLimit)
      else if s.life.state = .peat ∧ s.peatServes r = false then some (abortUnavailable, s.life.state.code)
      else none

/-- The checks by access class (R564). -/
def State.accessAbort (s : State) (r : Request) (en : Entry) : Option (Nat × Nat) :=
  match en.access with
  | .ro => some (abortReadOnly, 0)
  | .cst => some (abortReadOnly, 0)
  | .rwc => if s.life.state = .ready then none else some (abortWrongState, s.life.state.code)
  | .lck =>
    if s.unlock.holder ≠ 0 ∧ s.unlock.holder.toNat = r.path then none else some (abortLocked, 0)
  | .rw => none
  | .wo => none

/-- The checks of a WRITE from READ_ONLY to COUNTER_NONZERO (R569, R601). -/
def State.writeAbort (s : State) (r : Request) (en : Entry) : Option (Nat × Nat) :=
  match s.accessAbort r en with
  | some a => some a
  | none =>
    if r.rangeOk en = false then some (abortRange, en.elements)
    else if r.length ≠ r.implied en ∨ r.data.length ≠ r.length then some (abortSize, r.implied en)
    else
      match s.firstBad r en with
      | some i => some (abortValue, i)
      | none => (r.nonZero en).map fun e => (abortCounter, e)

/-! ### What a write changes -/

/-- One written element: stored in NOR and applied, or applied (R571, R577). -/
def State.putElement (s : State) (en : Entry) (index e v : Nat) : State :=
  if en.persisted then s.setStored index en.sub e v else s.setLed index en.sub e v

/-- What is kept of a written value: reserved bytes of a descriptor read zero. -/
def keptValue (index sub v : Nat) : Nat := if index = 0x5000 ∧ between 0x10 sub 0x17 then poolMasked v else v

/-- Every element that the request names takes its value. -/
def State.putElements (s : State) (r : Request) (en : Entry) : State :=
  (countFrom 0 (r.elements en)).foldl (fun (s : State) i =>
    s.putElement en r.index (r.first + i) (keptValue r.index en.sub (r.value en i))) s

/-! ### Service commands (R110 to R113) -/

/-- Why ENTER_SERVICE is refused (R111, R122): 1 NOT_READY, 2 RUNTIME_REFUSED, 3 MESH_INCOMPLETE. -/
def State.enterRefusal (s : State) : Nat :=
  if s.life.state ≠ .ready ∨ s.life.causes ≠ [] then 1
  else if s.serve.status ≠ 1 then 2
  else if s.led 0x1100 0x11 = 1 ∧ s.meshComplete = false then 3
  else 0

/-- ENTER_SERVICE accepted (R100, R111). -/
def State.enterService (s : State) : State :=
  let s := (s.setLed 0x1100 0x13 0 0).enterState .inService
  { s with life := { s.life with serveOkLow := false, drain := none } }

/-- ENTER_SERVICE refused (R111, R647). -/
def State.refuseService (s : State) (reason : Nat) : State :=
  (s.setLed 0x1100 0x13 0 reason).raise 0x0106 sevInfo [byte reason]

/-- LEAVE_SERVICE accepted (R112). -/
def State.leaveService (s : State) : State :=
  { s with life := { s.life with serveOkLow := true, drain := some (s.life.drain.getD .leaveService) } }

/-- HALT accepted (R110, R678): the cause, with the path; the halt follows the answer. -/
def State.commandHalt (s : State) (path : Nat) : State :=
  s.classD haltCommanded 0 0 [byte path, 0, 0, 0, 0, 0, 0, 0]

/-- A service command (R110): the state, and the detail of a refusal. -/
def State.serviceCommand (s : State) (v path : Nat) : State × Option Nat :=
  if v = 1 then
    if s.enterRefusal = 0 then (s.enterService, none) else (s.refuseService s.enterRefusal, some s.enterRefusal)
  else if v = 2 then
    if s.life.state = .inService ∧ s.life.causes = [] then (s.leaveService, none) else (s, some s.life.state.code)
  else if s.serving then (s.commandHalt path, none)
  else (s, some s.life.state.code)

/-! ### Unlock (R591 to R593) -/

/-- The 44-byte message that a response signs (R592). -/
def State.unlockMessage (s : State) (minutes : Nat) : List Byte :=
  s.unlock.challenge ++ toBytes 8 s.fuses.serial.toNat ++ toBytes 4 minutes

/-- A response fulfils R592. -/
def State.unlockOk (s : State) (data : List Byte) : Bool :=
  s.unlock.state != 2 && sha256 (data.take 32) == s.fuses.serviceKeyHash &&
    ed25519Verify (data.take 32) ((data.drop 32).take 64) (s.unlockMessage (imageNat data 96 4))

/-- Unlock granted to a path; an earlier unlock ends, and factory test access with it. -/
def State.grantUnlock (s : State) (path minutes : Nat) : State :=
  let s := s.setLed 0x9000 0x01 0 0
  let s := { s with unlock := { s.unlock with
    state := 1, holder := BitVec.ofNat 8 path, minutes := minutes, since := s.power.uclk, refusals := 0 } }
  (s.raise 0x0708 sevInfo ([byte path, 0, 0, 0] ++ toBytes 4 minutes)).newChallenge

/-- A response refused: counted and logged, and the third in a row locks out. -/
def State.refuseUnlock (s : State) (path : Nat) : State :=
  let s := (s.bump 0x8000 0x36 0 1).raise 0x0709 sevWarning [byte path]
  let s := if s.unlock.state = 2 then s
    else if s.unlock.refusals ≥ 2 then { s with unlock := { s.unlock with state := 2, refusals := 0 } }
    else { s with unlock := { s.unlock with refusals := s.unlock.refusals + 1 } }
  s.newChallenge

/-- A response is judged (R592). -/
def State.respondUnlock (s : State) (data : List Byte) (path : Nat) : State × Option Nat :=
  if s.unlockOk data then (s.grantUnlock path (imageNat data 96 4), none) else (s.refuseUnlock path, some 0)

/-! ### The update flow (R654 to R658) -/

/-- The update status. -/
def State.updateStatus (s : State) : Nat := s.led 0x8000 0x45

/-- IDLE, FAILED or PENDING_ACTIVATION (R654). -/
def State.updateOpen (s : State) : Bool := decide (s.updateStatus ∈ [0, 4, 5])

/-- The bank of a part that runs, as R655 has it. -/
def State.runningBank (s : State) (part : Nat) : Bool :=
  if part = 1 then s.uhleg.bankB else s.update.runtimeRan.getD s.runtimeBank

/-- The part of a bank. -/
def bankPart (b : ImageBank) : Nat := if isUhlegBank b then 1 else 2

/-- 0x8000:03 names a bank of a part. -/
def State.nameBank (s : State) (part : Nat) (b : Bool) : State :=
  s.setStored 0x8000 0x03 0 (setBit (s.led 0x8000 0x03) (part - 1) b)

/-- An activated image of a part is pending, or not. -/
def State.setPending (s : State) (part : Nat) (b : Bool) : State :=
  if part = 1 then { s with update := { s.update with pendingUhleg := b } }
  else { s with update := { s.update with pendingRuntime := b } }

/-- The running bank of a part is named again, and nothing of it is pending (R655). -/
def State.unname (s : State) (part : Nat) : State := (s.nameBank part (s.runningBank part)).setPending part false

/-- The update reaches FAILED (R647, R652). -/
def State.updateFails (s : State) (b : ImageBank) (code : Nat) : State := s.failUpdate (bankPart b) (isBankB b) code

/-- BEGIN would name the running bank again first (R655). -/
def State.beginUnnames (s : State) : Bool :=
  s.updateStatus == 4 && (s.update.targetBank.map bankPart == some (s.led 0x8000 0x40))

/-- BEGIN (R654, R655). -/
def State.beginUpdate (s : State) : State × Option Nat :=
  let target := s.led 0x8000 0x40
  let length := s.led 0x8000 0x41
  if s.updateOpen = false ∨ !between 1 target 2 ∨ length = 0 then (s, some 0)
  else
    let s := if s.beginUnnames then s.unname target else s
    let b := partBank target (!s.runningBank target)
    let s := { s with update := { s.update with targetBank := some b } }
    let s := s.raise 0x0701 sevInfo ([byte target, byte (isBankB b).toNat, 0, 0] ++ toBytes 4 length)
    if 256 + payloadLimit target < length then (s.updateFails b 1, none)
    else (((s.setLed 0x8000 0x45 0 1).setLed 0x8000 0x43 0 0).markBank b false, none)

/-- Bytes programmed at an offset, the sector erased first when it begins there (R655). -/
def programBank (l : List Byte) (at_ : Nat) (new : List Byte) : List Byte :=
  let rest := if at_ % 4096 = 0 then List.replicate (min (l.length - at_) 4096) 0xFF ++ l.drop (at_ + 4096) else l.drop at_
  padTo 0xFF at_ l ++ new ++ rest.drop new.length

/-- A block of update data (R654, R655). -/
def State.updateData (s : State) (data : List Byte) : State × Option Nat :=
  let got := s.led 0x8000 0x43
  let length := s.led 0x8000 0x41
  match s.update.targetBank with
  | some b =>
    if s.updateStatus = 1 ∧ got < length then
      let new := data.take (min 1024 (length - got))
      let u := s.update.setBank (.bytes (programBank (s.update.image b) got new)) b
      (({ s with update := u }).setLed 0x8000 0x43 0 (got + new.length), none)
    else (s, some 0)
  | none => (s, some 0)

/-- VERIFY (R654, R655). -/
def State.beginVerify (s : State) : State × Option Nat :=
  if s.updateStatus = 1 ∧ s.led 0x8000 0x43 = s.led 0x8000 0x41 then (s.setLed 0x8000 0x45 0 2, none) else (s, some 0)

/-- ACTIVATE (R654, R655). -/
def State.activate (s : State) : State × Option Nat :=
  match s.update.targetBank with
  | some b =>
    if s.updateStatus = 3 then
      (((s.nameBank (bankPart b) (isBankB b)).setPending (bankPart b) true).setLed 0x8000 0x45 0 4, none)
    else (s, some 0)
  | none => (s, some 0)

/-- ABORT (R627, R655). -/
def State.abortUpdate (s : State) : State :=
  let s := match s.update.targetBank with
    | some b => if s.updateStatus = 4 then s.unname (bankPart b) else s
    | none => s
  s.setLed 0x8000 0x45 0 0

/-- An update command (R654). -/
def State.updateCommand (s : State) (v : Nat) : State × Option Nat :=
  if v = 1 then s.beginUpdate
  else if v = 2 then s.beginVerify
  else if v = 3 then s.activate
  else (s.abortUpdate, none)

/-- Bytes read back otherwise than they were written. -/
def applyReadBack (l : List Byte) (bad : List (Nat × Byte)) : List Byte :=
  bad.foldl (fun (l : List Byte) x => setAt l x.1 x.2) l

/-- Verification ends (R652, R655): the checks on what the bank reads, and FLASH last. -/
def State.endVerify (s : State) (readBack : List (Nat × Byte)) : State :=
  match s.update.targetBank with
  | some b =>
    if s.updateStatus = 2 then
      let l := (s.update.image b)
      let read := applyReadBack l readBack
      let s := { s with update := s.update.setBank (.bytes read) b }
      let code := s.checkBank b false (some (s.led 0x8000 0x41, s.led 0x8000 0x40))
      let code := if code = 0 ∧ read ≠ l then 8 else code
      if code = 0 then
        ((s.markBank b true).setLed 0x8000 0x45 0 3).raise 0x0702 sevInfo
          ([byte (bankPart b), byte (isBankB b).toNat, 0, 0] ++ toBytes 4 (s.bankSecurity b))
      else s.updateFails b code
    else s
  | none => s

/-! ### Other actions -/

/-- CLEAR_START_COUNTER (R109). -/
def State.clearStartCounter (s : State) : State × Option Nat :=
  if s.life.state = .standby ∨ s.life.state = .halted ∨ s.life.state = .peat then (s.setStored 0x1100 0x03 0 0, none)
  else (s, some 0)

/-- The error history is cleared (R629). -/
def State.clearErrors (s : State) : State :=
  let s := ((s.setStored 0x3000 0x12 0 0).setStored 0x3000 0x13 0 0).setStored 0x3000 0x15 0 0
  (countFrom 0 16).foldl (fun (s : State) c => s.setStored (0x4000 + c) 0x32 0 0) s

/-- The start history is cleared (0x9000:03). -/
def State.clearStarts (s : State) : State :=
  let s := s.setStored 0x1100 0x04 0 0
  (countFrom 0 3).foldl (fun (s : State) e => s.setStored 0x1100 0x05 e 0) s

/-- TIME is set (R626). -/
def State.setTime (s : State) (v : Nat) : State :=
  let was := s.time.toNat
  ({ s with time := BitVec.ofNat 64 v }).raise 0x070B sevInfo (toBytes 8 was)

/-- Peaks that were written zero take the next sample (0x2100:04). -/
def State.clearPeaks (s : State) (r : Request) (en : Entry) : State :=
  (countFrom r.first (r.elements en)).foldl (fun (s : State) n => s.setSensor n { s.sensor n with peak := none }) s

/-- The tree loses its nodes of count 0 (R352, 0x5400:40). -/
def State.flushTree (s : State) : State := s.onTree State.evictUnused

/-- A new node capacity (R352): refused, with nothing changed, while more nodes would remain. -/
def State.setCapacity (s : State) (r : Request) (en : Entry) : State × Option Nat :=
  let t := s.evictUnused
  if r.value en 0 < t.tree.nodes.length then (s, some 0) else (s.onTree fun s => (s.evictUnused.putElements r en).refile, none)

/-- New cached windows (R174). -/
def State.setWindows (s : State) (hw : Hw) (r : Request) (en : Entry) : State := (s.flushLines hw).putElements r en

/-- The statistical monitor is enabled or not (R386). -/
def State.setMonitor (s : State) (r : Request) (en : Entry) : State :=
  let s := s.putElements r en
  if r.value en 0 = 1 then
    (countFrom 0 16).foldl (fun (s : State) c => s.setHealth c (s.health c).restartMonitor) s
  else s

/-! ### A write by its entry -/

/-- What a write that passed its checks does, and the detail when the home chapter refuses it. -/
def State.writeEffect (s : State) (hw : Hw) (r : Request) (en : Entry) : State × Option Nat :=
  let v := r.value en 0
  let sub := en.sub
  if r.index = 0x1100 then
    if sub = 0x06 then (if v = 1 then s.clearStartCounter else (s, none))
    else if sub = 0x10 then s.serviceCommand v r.path
    else ((s.putElements r en).meshChanged s.meshComplete true, none)
  else if r.index = 0x2100 ∧ sub = 0x04 then (s.clearPeaks r en, none)
  else if r.index = 0x3400 ∧ sub = 0x01 then (s.setWindows hw r en, none)
  else if r.index = 0x5400 ∧ sub = 0x01 then
    (if v = 0 then (s.putElements r en).flushTree else s.putElements r en, none)
  else if r.index = 0x5400 ∧ sub = 0x02 then s.setCapacity r en
  else if r.index = 0x5400 ∧ sub = 0x40 then (if v = 1 then s.flushTree else s, none)
  else if r.index = 0x6000 ∧ (sub = 0x20 ∨ sub = 0x21) then
    let t := s.putElements r en
    ({ t with front := { t.front with recipes := [] } }, none)
  else if r.index = 0x6800 ∧ sub = 0x21 then (s.setMonitor r en, none)
  else if r.index = 0x7000 ∧ sub = 0x02 then ((s.putElements r en).enablePorts (s.led 0x7000 0x02), none)
  else if r.index = 0x7800 ∧ sub = 0x16 then ({ s with pcie := { s.pcie with hostErrCount := 0 } }, none)
  else if r.index = 0x7800 ∧ sub = 0x17 then ({ s with pcie := { s.pcie with accessErrCount := 0 } }, none)
  else if r.index = 0x8000 then
    if sub = 0x06 then (s, none)
    else if sub = 0x31 then s.respondUnlock r.data r.path
    else if sub = 0x35 then (if v = 1 then s.endUnlock 1 else s, none)
    else if sub = 0x40 ∨ sub = 0x41 then (if s.updateOpen then (s.putElements r en, none) else (s, some 0))
    else if sub = 0x42 then s.updateData r.data
    else if sub = 0x44 then s.updateCommand v
    else if sub = 0x51 then (s.setTime v, none)
    else (s.putElements r en, none)
  else if r.index = 0x9000 ∧ sub = 0x02 then (if v = 1 then s.clearErrors else s, none)
  else if r.index = 0x9000 ∧ sub = 0x03 then (if v = 1 then s.clearStarts else s, none)
  else (s.putElements r en, none)

/-- An accepted write puts something in NOR before its answer (R109, R577, R629, R655). -/
def State.storesFirst (s : State) (r : Request) (en : Entry) : Bool :=
  let v := r.value en 0
  en.persisted || (r.index == 0x1100 && en.sub == 0x06 && v == 1) ||
    (r.index == 0x9000 && (en.sub == 0x02 || en.sub == 0x03) && v == 1) ||
    (r.index == 0x8000 && en.sub == 0x44 &&
      (v == 3 || (v == 1 && s.beginUnnames) || (v == 4 && s.updateStatus == 4)))

/-- What follows the answer to an accepted write: the restart of 0x8000:06 (R624), and the halt of HALT (R110, R680). -/
def State.afterAnswer (s : State) (hw : Hw) (r : Request) (en : Entry) : State :=
  if r.index = 0x8000 ∧ en.sub = 0x06 ∧ r.value en 0 = 1 then s.restartUhleg 2
  else if r.index = 0x1100 ∧ en.sub = 0x10 ∧ r.value en 0 = 3 then s.orderlyHalt hw
  else s

end Sys2Proof.Machine
end

