-- ==== Sys2Proof/WellFormed.lean ====
section
/-! DEFINITION. WellFormed.lean: which operands a command can have, where the types of Syntax.lean do not already say
so. -/

namespace Sys2Proof

/-- The data lengths of a CAN FD frame (R579). -/
def canLengths : List Nat := [0, 1, 2, 3, 4, 5, 6, 7, 8, 12, 16, 20, 24, 32, 48, 64]

/-- A start has nine stages whose work has an end of its own (R101; stage 10 ends by the census or its budget), and nothing
follows a stage that failed. -/
def Attempt.wf (a : Attempt) : Bool :=
  decide (a.stages.length ≤ 9) && a.stages.dropLast.all fun w => w.failed.isNone

/-- A rail's monitor gives one voltage and one current per rail (R77). -/
def Monitors.wf (m : Monitors) : Bool := m.milliVolts.length == 6 && m.milliAmps.length == 6

/-- A local granule is populated: it lies in the first 6 GiB of a chimney's 8 GiB window (R131). -/
def granulePopulated (g : Nat) : Bool := decide (g < 2 ^ 30) && decide (g % 2 ^ 26 < 3 * 2 ^ 24)

/-- A codeword lies in a populated granule, and its bit is one of the 136 of R153. -/
def CodewordError.wf (e : CodewordError) : Bool :=
  granulePopulated e.granule && (e.bit.map fun b => decide (b.toNat < 136)).getD true

/-- What the hardware meets is well formed. -/
def Hw.wf (h : Hw) : Bool := h.mem.all CodewordError.wf

/-- A CAN FD frame has one of the lengths of the bus; a core's port holds 1,792 bytes of data. -/
def LedgerPath.wf : LedgerPath → Bool
  | .can _ data => decide (data.length ∈ canLengths)
  | .corePort r => decide (r.data.length ≤ 1792)
  | _ => true

/-- A Ledger call's parts are well formed. -/
def LedgerCall.wf (c : LedgerCall) : Bool := c.path.wf && c.monitors.wf && c.hw.wf

/-- A memory request names a granule, and a write carries its 128 bytes, in class P3 (R142, R149). -/
def MemReq.wf (r : MemReq) : Bool :=
  decide (r.addr % 128 = 0) && (r.write.map fun w => w.length == 128 && decide (r.cls = .p3)).getD true

/-- What reaches the channels is well formed. -/
def MemEvent.wf : MemEvent → Bool
  | .enter arrivals hw | .issue _ _ hw arrivals => arrivals.all MemReq.wf && hw.wf

/-- A write through a BAR has bytes. -/
def BarWrite.wf (w : BarWrite) : Bool := decide (0 < w.bytes.length)

/-- An iteration gives a cell one conductance (R377). -/
def PulseIteration.wf (p : PulseIteration) : Bool := decide (p.cells.map fun x => (x.1, x.2.1)).Nodup

/-- A test check measures four vectors in 256 columns (R384). -/
def testCountsWf (l : List (List Int)) : Bool := l.length == 4 && l.all fun v => v.length == 256

/-- A codeword is 34 symbols, 170 levels, on each of 16 fibers (R493). -/
def laneLevelsWf (l : List (List (Fin 4))) : Bool := l.length == 16 && l.all fun f => f.length == 170

/-- A command is well formed. -/
def Instr.wellFormed : Instr → Bool
  | .startAttempt a => a.wf
  | .enterService c | .leaveService c | .halt c | .clearStartCounter c | .meshSettingsWrite c | .ledgerRead c
  | .ledgerWrite c | .ledgerDescribe c | .restartManagementCore c | .setTime c | .clearErrorHistory c
  | .clearStartHistory c | .unlockResponse c | .relock c | .begin c | .updateData c | .verify c | .activate c
  | .abort c | .scrubPeriodWrite c | .cachedWindowSizeWrite c | .flushTree c | .treeEnableWrite c
  | .nodeCapacityWrite c | .poolDescriptorWrite c | .portEnableWrite c => c.wf
  | .segmentDown _ data => decide (data.length ∈ canLengths)
  | .memRequest e => e.wf
  | .scrubRead errors => errors.all CodewordError.wf
  | .addI32 x _ | .addI64 x _ | .addF32 x _ | .minI32 x _ | .minI64 x _ | .minF32 x _ | .maxI32 x _ | .maxI64 x _
  | .maxF32 x _ | .swap32 x _ | .swap64 x _ | .cas32 x _ | .cas64 x _ | .lseInit x _ | .lseMerge x _ | .nop x
  | .wait x _ | .advance x _ | .setEvent x _ | .write x _ | .bake x _ | .enqueue x _ | .ring x _ | .park x _
  | .recipeLoad x _ | .recipeDrop x _ | .setLaneWindow x _ | .setEventRange x _ | .stop x _ | .start x _
  | .reset x _ | .unpark x _ | .dmaCopy x _ | .knead x _ | .drain x _ | .sieveAdd x _ | .sieveSub x _
  | .sieveMul x _ | .sieveFma x _ | .sieveMax x _ | .sieveMin x _ | .cmp x _ | .sel x _ | .cvt x _ | .exp2 x _
  | .exp x _ | .rcp x _ | .log2 x _ | .ln x _ | .rsqrt x _ | .sum x _ | .rmax x _ | .rmin x _ | .scaleCol x _
  | .statUpdate x _ | .topkScan x _ | .philox x _ | .rope x _ | .statInit x _ | .statRead x _ | .statWrite x _
  | .kvAppend x _ | .kvAttend x _ | .buildTables x _ | .packDeltas x _ | .reedRun x _ | .reedReadout x _
  | .reedProgram x _ => x.hw.wf
  | .coreAmo _ _ _ _ _ hw | .waitCompletion _ _ hw | .prooferWakeBake _ hw | .reedContribution _ hw
  | .guiltyQueueReset _ hw | .classDHalt _ hw | .generate hw | .cancel hw | .memRead _ hw | .memWrite _ hw | .aelisAtomic _ hw
  | .readData _ hw | .writeAck _ hw | .atomicRsp _ hw | .pageData _ hw | .pageAck _ hw | .pageRead _ hw | .pageWrite _ hw | .bar2Read _ _ hw => hw.wf
  | .testCheck _ intervals => testCountsWf intervals
  | .commandCompletion _ _ pulses hw => hw.wf && pulses.all PulseIteration.wf
  | .ident _ micros => decide (micros ≤ 1000000)
  | .frameReceived _ f => laneLevelsWf f.first && laneLevelsWf f.second
  | .portTrainingAttempt _ r => r.laser.length == 4 && r.order.length == 64 && r.power.length == 64
  | .bar0RegisterWrite w => w.wf
  | .bar2Write w hw => w.wf && hw.wf
  | .bypass code => decide (code.toNat ∉ [0, 1, 2, 4, 5]) && (decide (code.toNat < 0x80) || code == 0xFF)
  | .factoryTest code => decide (0x80 ≤ code.toNat) && code != 0xFF
  | .vaux33EntersWindow _ | .vaux33LeavesWindow | .railEntersWindow _ _ | .railExcursion _ _ | .rootPllUnlock _
  | .holdoverExpiry | .clockReturn _ | .lanePllUnlock _ | .resetNAssert _ _ | .stageTimeout | .stage10BudgetExpiry
  | .perstNAssert | .perstNRelease _ | .uhlegBoot _ | .uhlegWatchdogExpiry | .uhlegTrialTimer | .drainComplete
  | .sensorConversion _ _ _ | .segmentTimeout _ | .ledgerStoreCompaction | .logNorWrite _ _
  | .unlockExpiry | .lockoutExpiry | .updateVerified _ | .starvationPromotion _ | .refreshSlot _
  | .parityRetry _ _ _ | .reedRunBegin _ | .reedMonitorWindow _ | .recalibration _ _ | .frameSyncEdge _ _
  | .doorbell _ _ _ | .queueEnable _ _ _ | .restart _ _ _ | .eventAdvanceRegister _ _ _ _
  | .eventSetRegister _ _ _ _ | .timeSliceExpiry _ | .watchPeriod | .resetQuiesceTimeout _ _
  | .ringEnableWrite _ _ | .reqTailWrite _ _ | .tokHeadWrite _ _ | .userqRequest _ _ | .register _ _
  | .unregister _ | .assembly _ _ | .sampling _ _ | .heldTokenWrite | .tokenInterruptInterval
  | .runtimeWatchdogExpiry | .peerLease _ | .replayTimeout _ | .skip _ | .goodbye _
  | .linkDown _ _ | .linkDownHoldExpiry _
  | .d3hot | .dlDown | .pcieLinkUp _ _ _ | .completionTimeout _ _ | .extest | .idcode | .samplePreload _ _ | .clamp
  | .highz | .uhlegSramError | .runtimeFailed _ | .monitorCheckFailed _ _ | .coreUncorrectable _ _ | .timeLoRead _
  | .returnToD0 | .bar2Resize _ | .msiXEnable _ _ | .canErrorFrame _ => true

end Sys2Proof
end

