-- ==== Sys2Proof/Machine/Access.lean ====
section
/-! DEFINITION. Machine/Access.lean: Ledger requests served and answered on each path (chapter 16), and the commands that are
writes of one entry. -/

namespace Sys2Proof.Machine

/-! ### Answers -/

/-- An answer (R569): abort code, detail, and the bytes of a READ or DESCRIBE. -/
structure Answer where
  abort : Nat
  detail : Nat
  data : List Byte
  deriving DecidableEq, Repr

/-- The smallest CAN FD length that holds n bytes (R582). -/
def canLength (n : Nat) : Nat := (canLengths.find? fun l => decide (n ≤ l)).getD 64

/-- A frame filled up with zero bytes to its length (R582, R584). -/
def canFrame (l : List Byte) : List Byte := padTo 0 (canLength l.length) l

/-- The identifier of a frame this device sends to a requester, whose transfer sequence it repeats (R580, R583). -/
def State.replyIdent (s : State) (function : Nat) (ident : BitVec 29) : Nat :=
  function * 2 ^ 24 + s.uhleg.trayId.toNat * 2 ^ 16 + s.node * 2 ^ 8 + bits ident.toNat 0 8

/-- The header of a RESPONSE (R583). -/
def responseHeader (r : Request) (a : Answer) : List Byte :=
  [byte r.command, byte r.sub] ++ toBytes 2 r.index ++ [byte a.abort, 0, 0, 0] ++ toBytes 4 a.data.length ++
    toBytes 4 a.detail

/-- The segments of an answer that is not inline (R584). -/
def State.sendSegments (s : State) (ident : BitVec 29) (data : List Byte) : State :=
  let parts := chunks 60 data
  ((countFrom 0 parts.length).zip parts).foldl (fun (s : State) x =>
    s.sendCan (s.replyIdent 0x06 ident) (canFrame (toBytes 2 x.1 ++ [0, 0] ++ x.2))) s

/-- A RESPONSE, with its segments (R583, R584). -/
def State.respondCan (s : State) (ident : BitVec 29) (r : Request) (a : Answer) : State :=
  if a.data.length ≤ 48 then s.sendCan (s.replyIdent 0x05 ident) (canFrame (responseHeader r a ++ a.data))
  else (s.sendCan (s.replyIdent 0x05 ident) (responseHeader r a)).sendSegments ident a.data

/-- The download of a requester ends. -/
def State.endDownload (s : State) (requester : Nat) : State :=
  { s with can := { s.can with downloads := s.can.downloads.filter fun d => d.requester != requester } }

/-- The last abort (0x8000:27). -/
def State.noteAbort (s : State) (r : Request) (code : Nat) : State :=
  s.setLed 0x8000 0x27 0 (code + r.sub * 2 ^ 8 + r.index * 2 ^ 16 + r.path * 2 ^ 32)

/-- What every answer leaves (R596): the last abort, and transfers aborted. -/
def State.countAnswer (s : State) (r : Request) (a : Answer) : State :=
  let s := if a.abort = 0 then s else s.noteAbort r a.abort
  if a.abort = abortTransfer then s.bump 0x8000 0x25 0 1 else s

/-- An answer leaves on the path of its request (R583, R589); the Uhleg image on trial has answered (R661). -/
def State.reply (s : State) (path : LedgerPath) (r : Request) (a : Answer) : State :=
  let s := s.countAnswer r a
  let s := match path with
    | .mailbox => ({ s with mailbox := s.mailbox.answerWith a.abort a.detail a.data }).msix 2
    | .corePort _ => { s with corePort := s.corePort.answerWith a.abort a.detail a.data }
    | .can ident _ => s.respondCan ident r a
    | .download q =>
      match s.can.downloads.find? fun (d : Download) => d.requester == q.val with
      | some d => (s.endDownload q.val).respondCan d.ident r a
      | none => s
  s.uhlegTrialPassed

/-! ### Serving -/

/-- The bytes of a READ (R571). -/
def State.readElements (s : State) (m : Monitors) (r : Request) (en : Entry) : List Byte :=
  (countFrom r.first (r.elements en)).flatMap fun e => toBytes en.ty.size (s.entryValue m en r.index e)

/-- The 8 bytes of DESCRIBE (R568). -/
def describe (en : Entry) : List Byte :=
  let element := en.ty.code
  let flags := en.persisted.toNat + 2 * (decide (en.kind = .counter)).toNat + 4 * (decide (en.kind = .maximum)).toNat
  [byte (if en.array.isSome then 10 else element), byte (if en.array.isSome then element else 0), byte en.access.code,
    byte flags] ++ toBytes 2 en.elements ++ toBytes 2 en.size

/-- A request that passed the checks up to UNAVAILABLE is carried out: the state, the answer, and whether a write was
accepted. -/
def State.perform (s : State) (c : LedgerCall) (r : Request) (en : Entry) : State × Answer × Bool :=
  if r.command = 3 then (s, ⟨0, 0, describe en⟩, false)
  else if r.command = 1 then
    if r.rangeOk en then (s, ⟨0, 0, s.readElements c.monitors r en⟩, false)
    else (s, ⟨abortRange, en.elements, []⟩, false)
  else
    match s.writeAbort r en with
    | some (code, detail) => (s, ⟨code, detail, []⟩, false)
    | none =>
      match s.writeEffect c.hw r en with
      | (t, some detail) => (t, ⟨abortRefused, detail, []⟩, false)
      | (t, none) =>
        if s.storesFirst r en && !c.storeOk then (s, ⟨abortPersist, 0, []⟩, false) else (t, ⟨0, 0, []⟩, true)

/-- A request is served: checked, carried out, counted, answered (R567 to R574). -/
def State.serveRequest (s : State) (c : LedgerCall) (r : Request) : State :=
  match s.commonAbort r, findEntry r.index r.sub with
  | some (code, detail), _ => (s.bump 0x8000 0x26 0 1).reply c.path r ⟨code, detail, []⟩
  | none, none => (s.bump 0x8000 0x26 0 1).reply c.path r ⟨abortNoEntry, 0, []⟩
  | none, some en =>
    let p := s.perform c r en
    let t := (p.1.bump 0x8000 0x26 0 1).reply c.path r p.2.1
    if p.2.2 then t.afterAnswer c.hw r en else t

/-! ### Arrival -/

/-- A core's request written to its port, and GO (R588, R589); a BUSY port keeps what it holds. -/
def State.writePort (s : State) (q : PortRequest) : State :=
  if s.frontRuns = false then s
  else if s.corePort.state = 1 then { s with corePort := { s.corePort with mbxErr := true } }
  else
    { s with corePort := { s.corePort with
        state := 1, command := q.command, sub := q.sub, index := q.index, first := q.first, count := q.count
        reqLength := q.length, tag := q.tag, request := Sparse.write 0 s.corePort.request 0 q.data } }

/-- Frames for this device are counted (0x8000:21), and a new REQUEST ends the requester's earlier one (R586). -/
def State.takeCanFrame (s : State) (function : Nat) (ident : BitVec 29) : State :=
  if s.can.busOff = false ∧ s.ownFrame function ident then
    let s := s.bump 0x8000 0x21 0 1
    if function = 0x08 then s.endDownload (bits ident.toNat 5 3) else s
  else s

/-- What a path brings reaches Uhleg. -/
def State.arrive (s : State) : LedgerPath → State
  | .mailbox => s
  | .corePort q => s.writePort q
  | .can ident _ => s.takeCanFrame 0x08 ident
  | .download _ => s

/-- A WRITE whose data follows in segments (R582); one that the path cannot carry is answered at once. -/
def Request.segmented (r : Request) : Bool := r.command == 2 && decide (48 < r.length) && decide (r.length ≤ r.writeLimit)

/-- A download is opened (R582, R584). -/
def State.openDownload (s : State) (ident : BitVec 29) (frame : List Byte) : State :=
  { s with can := { s.can with downloads := s.can.downloads ++ [⟨bits ident.toNat 5 3, ident, padTo 0 16 frame, [], 0⟩] } }

/-- A Ledger request comes in on its path and is served, when it is one that the command names; otherwise the command
brings nothing. While Uhleg restarts, the core port is answered BUSY (R594). -/
def State.call (s : State) (c : LedgerCall) (takes : Request → Bool) : State :=
  let t := s.arrive c.path
  match t.requestAt c.path with
  | none => s
  | some r =>
    if takes r = false then s
    else if s.uhlegRuns = false then
      match c.path, s.uhleg.phase with
      | .corePort _, .restarting _ => t.busyMailboxes
      | _, _ => s
    else
      match c.path with
      | .can ident frame => if r.segmented then t.openDownload ident frame else t.serveRequest c r
      | _ => t.serveRequest c r

/-- A WRITE of one entry. -/
def Request.writes (r : Request) (index : Nat) (subs : List Nat) : Bool :=
  r.command == 2 && r.index == index && decide (r.sub ∈ subs)

/-- A WRITE of one entry with one value. -/
def Request.writesValue (r : Request) (index sub v : Nat) : Bool :=
  r.writes index [sub] && ofBytes r.data == v

/-! ### Reads, writes and descriptions -/

/-- LEDGER_READ (R567, R569); a command outside 1 to 3 comes here too. -/
def execLedgerRead (call : LedgerCall) (s : State) : Host.Outcome State Fault Refusal :=
  .next (s.call call fun r => r.command != 2 && r.command != 3)

/-- LEDGER_WRITE (R571). -/
def execLedgerWrite (call : LedgerCall) (s : State) : Host.Outcome State Fault Refusal :=
  .next (s.call call fun r => r.command == 2)

/-- LEDGER_DESCRIBE (R568). -/
def execLedgerDescribe (call : LedgerCall) (s : State) : Host.Outcome State Fault Refusal :=
  .next (s.call call fun r => r.command == 3)

/-! ### CAN FD segments -/

/-- The request of a download as far as it has come. -/
def Download.asRequest (d : Download) : Request := canRequest d.ident d.request d.data

/-- A download is answered TRANSFER with the segment number expected, and discarded (R585). -/
def State.abortTransfer (s : State) (d : Download) : State :=
  let r := d.asRequest
  let a : Answer := ⟨Sys2Proof.Machine.abortTransfer, d.next, []⟩
  (((s.countAnswer r a).endDownload d.requester).respondCan d.ident r a).uhlegTrialPassed

/-- Data bytes that segment d.next brings (R584). -/
def Download.due (d : Download) : Nat := min 60 (d.asRequest.length - d.data.length)

/-- A segment of an open download (R584, R585): the one expected, in the length that R584 gives it, is taken; any other ends
the download. -/
def State.takeSegment (s : State) (d : Download) (data : List Byte) : State :=
  if imageNat data 0 2 = d.next ∧ data.length = canLength (4 + d.due) then
    let d' := { d with data := d.data ++ (data.drop 4).take d.due, next := d.next + 1 }
    { s with can := { s.can with downloads := s.can.downloads.map fun x => if x.requester = d.requester then d' else x } }
  else s.abortTransfer d

/-- SEGMENT_DOWN (R584, R585): a frame with no open download of its transfer is ignored. -/
def execSegmentDown (ident : BitVec 29) (data : List Byte) (s : State) : Host.Outcome State Fault Refusal :=
  .next (if s.uhlegRuns ∧ s.can.busOff = false ∧ s.ownFrame 0x09 ident then
      let s := s.takeCanFrame 0x09 ident
      match s.can.downloads.find? fun d => bits d.ident.toNat 0 8 == bits ident.toNat 0 8 with
      | some d => if d.data.length < d.asRequest.length then s.takeSegment d data else s
      | none => s
    else s)

/-- SEGMENT_TIMEOUT (R585). -/
def execSegmentTimeout (requester : Fin 8) (s : State) : Host.Outcome State Fault Refusal :=
  .next (if s.uhlegRuns then
      match s.can.downloads.find? fun d => d.requester == requester.val with
      | some d => if d.data.length < d.asRequest.length then s.abortTransfer d else s
      | none => s
    else s)

/-- CAN_ERROR_FRAME (R579, R596): an error frame is counted; bus-off, which errors of this device's own frames bring, is
counted too and stops the frames until the controller has recovered. -/
def execCanErrorFrame (event : CanEvent) (s : State) : Host.Outcome State Fault Refusal :=
  .next (if s.awake then
      match event with
      | .errorFrame => if s.can.busOff then s else s.bump 0x8000 0x23 0 1
      | .busOff =>
        if s.can.busOff then s
        else
          let s := (s.bump 0x8000 0x23 0 1).bump 0x8000 0x24 0 1
          { s with can := { s.can with busOff := true } }
      | .recovered => { s with can := { s.can with busOff := false } }
    else s)

/-! ### Service commands -/

/-- ENTER_SERVICE (R110, R111). -/
def execEnterService (call : LedgerCall) (s : State) : Host.Outcome State Fault Refusal :=
  .next (s.call call fun r => r.writesValue 0x1100 0x10 1)

/-- LEAVE_SERVICE (R110, R112). -/
def execLeaveService (call : LedgerCall) (s : State) : Host.Outcome State Fault Refusal :=
  .next (s.call call fun r => r.writesValue 0x1100 0x10 2)

/-- HALT (R110, R680). -/
def execHalt (call : LedgerCall) (s : State) : Host.Outcome State Fault Refusal :=
  .next (s.call call fun r => r.writesValue 0x1100 0x10 3)

/-- DRAIN_COMPLETE (R112, R113): no step remains. -/
def execDrainComplete (s : State) : Host.Outcome State Fault Refusal :=
  .next (if s.life.state = .inService ∧ s.life.drain.isSome ∧ s.runtime.steps = [] ∧ s.life.causes = [] then
      ({ s with life := { s.life with drain := none } }).enterState .ready
    else s)

/-- CLEAR_START_COUNTER (R109). -/
def execClearStartCounter (call : LedgerCall) (s : State) : Host.Outcome State Fault Refusal :=
  .next (s.call call fun r => r.writesValue 0x1100 0x06 1)

/-- MESH_SETTINGS_WRITE (R128). -/
def execMeshSettingsWrite (call : LedgerCall) (s : State) : Host.Outcome State Fault Refusal :=
  .next (s.call call fun r => r.writes 0x1100 [0x11, 0x12])

/-! ### Management -/

/-- RESTART_MANAGEMENT_CORE (R624). -/
def execRestartManagementCore (call : LedgerCall) (s : State) : Host.Outcome State Fault Refusal :=
  .next (s.call call fun r => r.writesValue 0x8000 0x06 1)

/-- SET_TIME (R626). -/
def execSetTime (call : LedgerCall) (s : State) : Host.Outcome State Fault Refusal :=
  .next (s.call call fun r => r.writes 0x8000 [0x51])

/-- CLEAR_ERROR_HISTORY (R629). -/
def execClearErrorHistory (call : LedgerCall) (s : State) : Host.Outcome State Fault Refusal :=
  .next (s.call call fun r => r.writesValue 0x9000 0x02 1)

/-- CLEAR_START_HISTORY (R628). -/
def execClearStartHistory (call : LedgerCall) (s : State) : Host.Outcome State Fault Refusal :=
  .next (s.call call fun r => r.writesValue 0x9000 0x03 1)

/-- UNLOCK_RESPONSE (R592). -/
def execUnlockResponse (call : LedgerCall) (s : State) : Host.Outcome State Fault Refusal :=
  .next (s.call call fun r => r.writes 0x8000 [0x31])

/-- RELOCK (R593). -/
def execRelock (call : LedgerCall) (s : State) : Host.Outcome State Fault Refusal :=
  .next (s.call call fun r => r.writesValue 0x8000 0x35 1)

/-- UNLOCK_EXPIRY (R593). -/
def execUnlockExpiry (s : State) : Host.Outcome State Fault Refusal := .next (if s.uhlegRuns then s.endUnlock 2 else s)

/-- LOCKOUT_EXPIRY (R592): the state is LOCKED again, or UNLOCKED for a holder whose unlock has not ended. -/
def execLockoutExpiry (s : State) : Host.Outcome State Fault Refusal :=
  .next (if s.awake ∧ s.unlock.state = 2 then
      { s with unlock := { s.unlock with state := if s.unlock.holder = 0 then 0 else 1 } }
    else s)

/-- BEGIN (R655). -/
def execBegin (call : LedgerCall) (s : State) : Host.Outcome State Fault Refusal :=
  .next (s.call call fun r => r.writesValue 0x8000 0x44 1)

/-- UPDATE_DATA (R655). -/
def execUpdateData (call : LedgerCall) (s : State) : Host.Outcome State Fault Refusal :=
  .next (s.call call fun r => r.writes 0x8000 [0x42])

/-- VERIFY (R655). -/
def execVerify (call : LedgerCall) (s : State) : Host.Outcome State Fault Refusal :=
  .next (s.call call fun r => r.writesValue 0x8000 0x44 2)

/-- UPDATE_VERIFIED (R652, R655): the read-back and the checks end; the operand lists the bytes that do not read as they
were written. -/
def execUpdateVerified (readBack : List (Nat × Byte)) (s : State) : Host.Outcome State Fault Refusal :=
  .next (if s.uhlegRuns then s.endVerify readBack else s)

/-- ACTIVATE (R655). -/
def execActivate (call : LedgerCall) (s : State) : Host.Outcome State Fault Refusal :=
  .next (s.call call fun r => r.writesValue 0x8000 0x44 3)

/-- ABORT (R627, R655). -/
def execAbort (call : LedgerCall) (s : State) : Host.Outcome State Fault Refusal :=
  .next (s.call call fun r => r.writesValue 0x8000 0x44 4)

/-! ### Settings of other chapters -/

/-- SCRUB_PERIOD_WRITE (R157). -/
def execScrubPeriodWrite (call : LedgerCall) (s : State) : Host.Outcome State Fault Refusal :=
  .next (s.call call fun r => r.writes 0x3000 [0x40])

/-- CACHED_WINDOW_SIZE_WRITE (R174). -/
def execCachedWindowSizeWrite (call : LedgerCall) (s : State) : Host.Outcome State Fault Refusal :=
  .next (s.call call fun r => r.writes 0x3400 [0x01])

/-- FLUSH_TREE (R330). -/
def execFlushTree (call : LedgerCall) (s : State) : Host.Outcome State Fault Refusal :=
  .next (s.call call fun r => r.writesValue 0x5400 0x40 1)

/-- TREE_ENABLE_WRITE (R352). -/
def execTreeEnableWrite (call : LedgerCall) (s : State) : Host.Outcome State Fault Refusal :=
  .next (s.call call fun r => r.writes 0x5400 [0x01])

/-- NODE_CAPACITY_WRITE (R352). -/
def execNodeCapacityWrite (call : LedgerCall) (s : State) : Host.Outcome State Fault Refusal :=
  .next (s.call call fun r => r.writes 0x5400 [0x02])

/-- POOL_DESCRIPTOR_WRITE (R280). -/
def execPoolDescriptorWrite (call : LedgerCall) (s : State) : Host.Outcome State Fault Refusal :=
  .next (s.call call fun r => r.writes 0x5000 [0x10, 0x11, 0x12, 0x13, 0x14, 0x15, 0x16, 0x17])

/-- PORT_ENABLE_WRITE (R529). -/
def execPortEnableWrite (call : LedgerCall) (s : State) : Host.Outcome State Fault Refusal :=
  .next (s.call call fun r => r.writes 0x7000 [0x02])

end Sys2Proof.Machine
end

