-- ==== Sys2Proof/Machine/Jtag.lean ====
section
/-! DEFINITION. Machine/Jtag.lean: the test access port (R718, R719, R732). -/

namespace Sys2Proof.Machine

/-- EXTEST, CLAMP and HIGHZ act (R719). -/
def State.scanActs (s : State) : Bool := s.life.state == .standby || s.life.state == .peat

/-- The registers between TDI and TDO. -/
def tapBypass : BitVec 2 := 0
def tapIdentification : BitVec 2 := 1
def tapBoundary : BitVec 2 := 2
def tapFactory : BitVec 2 := 3

/-- The identification register (R718). -/
def idcode : Word := 0x14800B67

/-- An instruction takes effect at Update-IR (R718, R719, R732): the register it selects, whether outputs are driven from
the preloaded values, and whether they are released. -/
def State.loadIr (s : State) (code : Byte) : State :=
  let c := code.toNat
  let acts := s.scanActs
  let factory : Bool := between 0x80 c 0xFE && s.led 0x9000 0x01 == 1
  let selected : BitVec 2 :=
    if c = 1 then tapIdentification
    else if c = 2 ∨ (c = 0 ∧ acts) then tapBoundary
    else if factory then tapFactory
    else tapBypass
  { s with jtag := { s.jtag with
      ir := code, selected := selected, driving := acts && (c == 0 || c == 4), released := acts && c == 5 } }

/-- The port answers while the always-on domain has power. -/
def State.jtagLoad (s : State) (code : Byte) : State := if s.power.inWindow.vaux33 then s.loadIr code else s

/-- Outputs are driven by the boundary-scan register now (R719): never outside STANDBY and PEAT. -/
def State.scanDrives (s : State) : Bool := s.scanActs && s.jtag.driving

/-- Outputs are released by HIGHZ now (R719). -/
def State.scanReleases (s : State) : Bool := s.scanActs && s.jtag.released

/-- EXTEST (R718, R719). -/
def execExtest (s : State) : Host.Outcome State Fault Refusal := .next (s.jtagLoad 0x00)

/-- IDCODE (R718). -/
def execIdcode (s : State) : Host.Outcome State Fault Refusal := .next (s.jtagLoad 0x01)

/-- SAMPLE/PRELOAD (R718): the levels of the lands are captured, and the values to be driven are loaded. -/
def execSamplePreload (sampled preload : BitVec 27) (s : State) : Host.Outcome State Fault Refusal :=
  .next (let t := s.jtagLoad 0x02
    if s.power.inWindow.vaux33 then { t with jtag := { t.jtag with boundary := sampled, preload := preload } } else t)

/-- CLAMP (R718, R719). -/
def execClamp (s : State) : Host.Outcome State Fault Refusal := .next (s.jtagLoad 0x04)

/-- HIGHZ (R718, R719). -/
def execHighz (s : State) : Host.Outcome State Fault Refusal := .next (s.jtagLoad 0x05)

/-- BYPASS (R718): 0xFF, and every code without an instruction. -/
def execBypass (code : Byte) (s : State) : Host.Outcome State Fault Refusal := .next (s.jtagLoad code)

/-- FACTORY_TEST (R718): codes 0x80 to 0xFE act only while 0x9000:01 is 1. -/
def execFactoryTest (code : Byte) (s : State) : Host.Outcome State Fault Refusal := .next (s.jtagLoad code)

end Sys2Proof.Machine
end

