-- ==== Sys2Proof/Machine/Dispatch.lean ====
section
/-! DEFINITION. Machine/Dispatch.lean: the meaning of every command, one arm per constructor of Instr. -/

namespace Sys2Proof.Machine

/-- A command's effect on everything but the queue of waiting commands. -/
def exec (i : Instr) (s : State) : Host.Outcome State Fault Refusal :=
  match i with
  -- power, clocks and life cycle
  | .vaux33EntersWindow boot => Sys2Proof.Machine.execVaux33EntersWindow boot s
  | .vaux33LeavesWindow => Sys2Proof.Machine.execVaux33LeavesWindow s
  | .railEntersWindow rails peat => Sys2Proof.Machine.execRailEntersWindow rails peat s
  | .railExcursion rail milliVolts => Sys2Proof.Machine.execRailExcursion rail milliVolts s
  | .rootPllUnlock refclk => Sys2Proof.Machine.execRootPllUnlock refclk s
  | .holdoverExpiry => Sys2Proof.Machine.execHoldoverExpiry s
  | .clockReturn boot => Sys2Proof.Machine.execClockReturn boot s
  | .lanePllUnlock port => Sys2Proof.Machine.execLanePllUnlock port s
  | .resetNAssert nanoSeconds bootSafe => Sys2Proof.Machine.execResetNAssert nanoSeconds bootSafe s
  | .startAttempt a => Sys2Proof.Machine.execStartAttempt a s
  | .stageTimeout => Sys2Proof.Machine.execStageTimeout s
  | .stage10BudgetExpiry => Sys2Proof.Machine.execStage10BudgetExpiry s
  | .perstNAssert => Sys2Proof.Machine.execPerstNAssert s
  | .perstNRelease peat => Sys2Proof.Machine.execPerstNRelease peat s
  | .uhlegBoot boot => Sys2Proof.Machine.execUhlegBoot boot s
  | .uhlegWatchdogExpiry => Sys2Proof.Machine.execUhlegWatchdogExpiry s
  | .uhlegTrialTimer => Sys2Proof.Machine.execUhlegTrialTimer s
  | .enterService call => Sys2Proof.Machine.execEnterService call s
  | .leaveService call => Sys2Proof.Machine.execLeaveService call s
  | .halt call => Sys2Proof.Machine.execHalt call s
  | .drainComplete => Sys2Proof.Machine.execDrainComplete s
  | .clearStartCounter call => Sys2Proof.Machine.execClearStartCounter call s
  | .meshSettingsWrite call => Sys2Proof.Machine.execMeshSettingsWrite call s
  | .sensorConversion sensor raw selfCheck => Sys2Proof.Machine.execSensorConversion sensor raw selfCheck s
  | .classDHalt frontEnd hw => Sys2Proof.Machine.execClassDHalt frontEnd hw s
  -- the Ledger and management
  | .ledgerRead call => Sys2Proof.Machine.execLedgerRead call s
  | .ledgerWrite call => Sys2Proof.Machine.execLedgerWrite call s
  | .ledgerDescribe call => Sys2Proof.Machine.execLedgerDescribe call s
  | .segmentDown ident data => Sys2Proof.Machine.execSegmentDown ident data s
  | .segmentTimeout requester => Sys2Proof.Machine.execSegmentTimeout requester s
  | .ledgerStoreCompaction => Sys2Proof.Machine.execLedgerStoreCompaction s
  | .logNorWrite firstOk repeatOk => Sys2Proof.Machine.execLogNorWrite firstOk repeatOk s
  | .restartManagementCore call => Sys2Proof.Machine.execRestartManagementCore call s
  | .setTime call => Sys2Proof.Machine.execSetTime call s
  | .clearErrorHistory call => Sys2Proof.Machine.execClearErrorHistory call s
  | .clearStartHistory call => Sys2Proof.Machine.execClearStartHistory call s
  | .unlockResponse call => Sys2Proof.Machine.execUnlockResponse call s
  | .relock call => Sys2Proof.Machine.execRelock call s
  | .unlockExpiry => Sys2Proof.Machine.execUnlockExpiry s
  | .lockoutExpiry => Sys2Proof.Machine.execLockoutExpiry s
  | .begin call => Sys2Proof.Machine.execBegin call s
  | .updateData call => Sys2Proof.Machine.execUpdateData call s
  | .verify call => Sys2Proof.Machine.execVerify call s
  | .updateVerified readBack => Sys2Proof.Machine.execUpdateVerified readBack s
  | .activate call => Sys2Proof.Machine.execActivate call s
  | .abort call => Sys2Proof.Machine.execAbort call s
  -- memory, shared cache and atomics
  | .memRequest e => Sys2Proof.Machine.execMemRequest e s
  | .starvationPromotion channel => Sys2Proof.Machine.execStarvationPromotion channel s
  | .refreshSlot channel => Sys2Proof.Machine.execRefreshSlot channel s
  | .parityRetry channel replayed writeData => Sys2Proof.Machine.execParityRetry channel replayed writeData s
  | .scrubRead errors => Sys2Proof.Machine.execScrubRead errors s
  | .scrubPeriodWrite call => Sys2Proof.Machine.execScrubPeriodWrite call s
  | .cachedWindowSizeWrite call => Sys2Proof.Machine.execCachedWindowSizeWrite call s
  | .addI32 x o => Sys2Proof.Machine.execAddI32 x o s
  | .addI64 x o => Sys2Proof.Machine.execAddI64 x o s
  | .addF32 x o => Sys2Proof.Machine.execAddF32 x o s
  | .minI32 x o => Sys2Proof.Machine.execMinI32 x o s
  | .minI64 x o => Sys2Proof.Machine.execMinI64 x o s
  | .minF32 x o => Sys2Proof.Machine.execMinF32 x o s
  | .maxI32 x o => Sys2Proof.Machine.execMaxI32 x o s
  | .maxI64 x o => Sys2Proof.Machine.execMaxI64 x o s
  | .maxF32 x o => Sys2Proof.Machine.execMaxF32 x o s
  | .swap32 x o => Sys2Proof.Machine.execSwap32 x o s
  | .swap64 x o => Sys2Proof.Machine.execSwap64 x o s
  | .cas32 x o => Sys2Proof.Machine.execCas32 x o s
  | .cas64 x o => Sys2Proof.Machine.execCas64 x o s
  | .lseInit x o => Sys2Proof.Machine.execLseInit x o s
  | .lseMerge x o => Sys2Proof.Machine.execLseMerge x o s
  | .coreAmo core op double addr value hw => Sys2Proof.Machine.execCoreAmo core op double addr value hw s
  -- the Oven
  | .nop x => Sys2Proof.Machine.execNop x s
  | .wait x o => Sys2Proof.Machine.execWait x o s
  | .waitCompletion queue place hw => Sys2Proof.Machine.execWaitCompletion queue place hw s
  | .advance x o => Sys2Proof.Machine.execAdvance x o s
  | .setEvent x o => Sys2Proof.Machine.execSetEvent x o s
  | .write x o => Sys2Proof.Machine.execWrite x o s
  | .bake x o => Sys2Proof.Machine.execBake x o s
  | .enqueue x o => Sys2Proof.Machine.execEnqueue x o s
  | .ring x o => Sys2Proof.Machine.execRing x o s
  | .park x o => Sys2Proof.Machine.execPark x o s
  | .prooferWakeBake queue hw => Sys2Proof.Machine.execProoferWakeBake queue hw s
  | .recipeLoad x o => Sys2Proof.Machine.execRecipeLoad x o s
  | .recipeDrop x recipe => Sys2Proof.Machine.execRecipeDrop x recipe s
  | .setLaneWindow x o => Sys2Proof.Machine.execSetLaneWindow x o s
  | .setEventRange x o => Sys2Proof.Machine.execSetEventRange x o s
  | .stop x o => Sys2Proof.Machine.execStop x o s
  | .start x o => Sys2Proof.Machine.execStart x o s
  | .reset x o => Sys2Proof.Machine.execReset x o s
  | .unpark x o => Sys2Proof.Machine.execUnpark x o s
  -- the cells
  | .dmaCopy x o => Sys2Proof.Machine.execDmaCopy x o s
  | .knead x o => Sys2Proof.Machine.execKnead x o s
  | .drain x o => Sys2Proof.Machine.execDrain x o s
  | .sieveAdd x o => Sys2Proof.Machine.execSieveAdd x o s
  | .sieveSub x o => Sys2Proof.Machine.execSieveSub x o s
  | .sieveMul x o => Sys2Proof.Machine.execSieveMul x o s
  | .sieveFma x o => Sys2Proof.Machine.execSieveFma x o s
  | .sieveMax x o => Sys2Proof.Machine.execSieveMax x o s
  | .sieveMin x o => Sys2Proof.Machine.execSieveMin x o s
  | .cmp x o => Sys2Proof.Machine.execCmp x o s
  | .sel x o => Sys2Proof.Machine.execSel x o s
  | .cvt x o => Sys2Proof.Machine.execCvt x o s
  | .exp2 x o => Sys2Proof.Machine.execExp2 x o s
  | .exp x o => Sys2Proof.Machine.execExp x o s
  | .rcp x o => Sys2Proof.Machine.execRcp x o s
  | .log2 x o => Sys2Proof.Machine.execLog2 x o s
  | .ln x o => Sys2Proof.Machine.execLn x o s
  | .rsqrt x o => Sys2Proof.Machine.execRsqrt x o s
  | .sum x o => Sys2Proof.Machine.execSum x o s
  | .rmax x o => Sys2Proof.Machine.execRmax x o s
  | .rmin x o => Sys2Proof.Machine.execRmin x o s
  | .scaleCol x o => Sys2Proof.Machine.execScaleCol x o s
  | .statUpdate x o => Sys2Proof.Machine.execStatUpdate x o s
  | .topkScan x o => Sys2Proof.Machine.execTopkScan x o s
  | .philox x o => Sys2Proof.Machine.execPhilox x o s
  | .rope x o => Sys2Proof.Machine.execRope x o s
  | .statInit x o => Sys2Proof.Machine.execStatInit x o s
  | .statRead x o => Sys2Proof.Machine.execStatRead x o s
  | .statWrite x o => Sys2Proof.Machine.execStatWrite x o s
  | .kvAppend x o => Sys2Proof.Machine.execKvAppend x o s
  | .kvAttend x o => Sys2Proof.Machine.execKvAttend x o s
  | .buildTables x o => Sys2Proof.Machine.execBuildTables x o s
  | .packDeltas x o => Sys2Proof.Machine.execPackDeltas x o s
  -- the Reed arrays
  | .reedRun x o => Sys2Proof.Machine.execReedRun x o s
  | .reedRunBegin cell => Sys2Proof.Machine.execReedRunBegin cell s
  | .reedContribution cell hw => Sys2Proof.Machine.execReedContribution cell hw s
  | .reedReadout x o => Sys2Proof.Machine.execReedReadout x o s
  | .reedProgram x o => Sys2Proof.Machine.execReedProgram x o s
  | .testCheck cell intervals => Sys2Proof.Machine.execTestCheck cell intervals s
  | .reedMonitorWindow cell => Sys2Proof.Machine.execReedMonitorWindow cell s
  | .recalibration cell result => Sys2Proof.Machine.execRecalibration cell result s
  | .frameSyncEdge fraction recognizable => Sys2Proof.Machine.execFrameSyncEdge fraction recognizable s
  -- queue registers
  | .doorbell path queue value => Sys2Proof.Machine.execDoorbell path queue value s
  | .queueEnable path queue value => Sys2Proof.Machine.execQueueEnable path queue value s
  | .restart path queue value => Sys2Proof.Machine.execRestart path queue value s
  | .eventAdvanceRegister path counter low high => Sys2Proof.Machine.execEventAdvanceRegister path counter low high s
  | .eventSetRegister path counter low high => Sys2Proof.Machine.execEventSetRegister path counter low high s
  | .commandCompletion queue place pulses hw => Sys2Proof.Machine.execCommandCompletion queue place pulses hw s
  | .timeSliceExpiry unit => Sys2Proof.Machine.execTimeSliceExpiry unit s
  | .watchPeriod => Sys2Proof.Machine.execWatchPeriod s
  | .guiltyQueueReset queue hw => Sys2Proof.Machine.execGuiltyQueueReset queue hw s
  | .resetQuiesceTimeout queue unit => Sys2Proof.Machine.execResetQuiesceTimeout queue unit s
  -- the serving runtime
  | .ringEnableWrite path value => Sys2Proof.Machine.execRingEnableWrite path value s
  | .reqTailWrite path value => Sys2Proof.Machine.execReqTailWrite path value s
  | .tokHeadWrite path value => Sys2Proof.Machine.execTokHeadWrite path value s
  | .userqRequest path value => Sys2Proof.Machine.execUserqRequest path value s
  | .register path finding => Sys2Proof.Machine.execRegister path finding s
  | .unregister path => Sys2Proof.Machine.execUnregister path s
  | .generate hw => Sys2Proof.Machine.execGenerate hw s
  | .cancel hw => Sys2Proof.Machine.execCancel hw s
  | .assembly model plan => Sys2Proof.Machine.execAssembly model plan s
  | .flushTree call => Sys2Proof.Machine.execFlushTree call s
  | .treeEnableWrite call => Sys2Proof.Machine.execTreeEnableWrite call s
  | .nodeCapacityWrite call => Sys2Proof.Machine.execNodeCapacityWrite call s
  | .poolDescriptorWrite call => Sys2Proof.Machine.execPoolDescriptorWrite call s
  | .sampling number result => Sys2Proof.Machine.execSampling number result s
  | .heldTokenWrite => Sys2Proof.Machine.execHeldTokenWrite s
  | .tokenInterruptInterval => Sys2Proof.Machine.execTokenInterruptInterval s
  | .runtimeWatchdogExpiry => Sys2Proof.Machine.execRuntimeWatchdogExpiry s
  | .peerLease list => Sys2Proof.Machine.execPeerLease list s
  -- Aelis
  | .portTrainingAttempt port run => Sys2Proof.Machine.execPortTrainingAttempt port run s
  | .ident port micros => Sys2Proof.Machine.execIdent port micros s
  | .frameReceived port frame => Sys2Proof.Machine.execFrameReceived port frame s
  | .replayTimeout port => Sys2Proof.Machine.execReplayTimeout port s
  | .skip port => Sys2Proof.Machine.execSkip port s
  | .goodbye port => Sys2Proof.Machine.execGoodbye port s
  | .linkDown port loss => Sys2Proof.Machine.execLinkDown port loss s
  | .linkDownHoldExpiry port => Sys2Proof.Machine.execLinkDownHoldExpiry port s
  | .portEnableWrite call => Sys2Proof.Machine.execPortEnableWrite call s
  | .memRead port hw => Sys2Proof.Machine.execMemRead port hw s
  | .memWrite port hw => Sys2Proof.Machine.execMemWrite port hw s
  | .aelisAtomic port hw => Sys2Proof.Machine.execAelisAtomic port hw s
  | .pageRead port hw => Sys2Proof.Machine.execPageRead port hw s
  | .pageWrite port hw => Sys2Proof.Machine.execPageWrite port hw s
  | .readData port hw => Sys2Proof.Machine.execReadData port hw s
  | .writeAck port hw => Sys2Proof.Machine.execWriteAck port hw s
  | .atomicRsp port hw => Sys2Proof.Machine.execAtomicRsp port hw s
  | .pageData port hw => Sys2Proof.Machine.execPageData port hw s
  | .pageAck port hw => Sys2Proof.Machine.execPageAck port hw s
  -- PCIe
  | .bar0RegisterWrite w => Sys2Proof.Machine.execBar0RegisterWrite w s
  | .bar2Read offset length hw => Sys2Proof.Machine.execBar2Read offset length hw s
  | .bar2Write w hw => Sys2Proof.Machine.execBar2Write w hw s
  | .d3hot => Sys2Proof.Machine.execD3hot s
  | .dlDown => Sys2Proof.Machine.execDlDown s
  | .pcieLinkUp speed width flit => Sys2Proof.Machine.execPcieLinkUp speed width flit s
  | .completionTimeout queue place => Sys2Proof.Machine.execCompletionTimeout queue place s
  -- JTAG
  | .extest => Sys2Proof.Machine.execExtest s
  | .idcode => Sys2Proof.Machine.execIdcode s
  | .samplePreload sampled preload => Sys2Proof.Machine.execSamplePreload sampled preload s
  | .clamp => Sys2Proof.Machine.execClamp s
  | .highz => Sys2Proof.Machine.execHighz s
  | .bypass code => Sys2Proof.Machine.execBypass code s
  | .factoryTest code => Sys2Proof.Machine.execFactoryTest code s
  -- the rest
  | .uhlegSramError => Sys2Proof.Machine.execUhlegSramError s
  | .runtimeFailed error => Sys2Proof.Machine.execRuntimeFailed error s
  | .monitorCheckFailed sensor missed => Sys2Proof.Machine.execMonitorCheckFailed sensor missed s
  | .coreUncorrectable core cache => Sys2Proof.Machine.execCoreUncorrectable core cache s
  | .timeLoRead path => Sys2Proof.Machine.execTimeLoRead path s
  | .returnToD0 => Sys2Proof.Machine.execReturnToD0 s
  | .bar2Resize size => Sys2Proof.Machine.execBar2Resize size s
  | .msiXEnable enable functionMask => Sys2Proof.Machine.execMsiXEnable enable functionMask s
  | .canErrorFrame event => Sys2Proof.Machine.execCanErrorFrame event s

end Sys2Proof.Machine
end

