-- ==== Sys2Proof/Machine/Step.lean ====
section
/-! DEFINITION. Machine/Step.lean: one step of the part: the waiting command at the front of the queue, or one UCLK
edge. -/

namespace Sys2Proof.Machine

/-- The serving runtime's heartbeat (R454): it is advanced every 10 ms of UCLK, the longest interval the rule allows (log
entry 47). -/
def heartbeat (s : State) : State :=
  if s.runtimeRuns && s.power.uclk % 1500000 == 0 then
    { s with serve := { s.serve with heartbeat := advanceCnt s.serve.heartbeat 1 } }
  else s

/-- With no command waiting, one edge of UCLK passes where UCLK runs: TIME advances (R91, R546; log entries 1 and 2). -/
def tick (s : State) : State :=
  if s.power.inWindow.vaux33 ∧ s.power.clocksStopped = false then
    heartbeat { s with time := s.time + 1, power := { s.power with uclk := s.power.uclk + 1 } }
  else s

/-- One step (log entry 1): the command at the front leaves the queue and is run on the rest. -/
def step (s : State) : Host.Outcome State Fault Refusal :=
  match s.pending with
  | [] => .next (tick s)
  | c :: rest => exec c { s with pending := rest }

/-- The state with the command that a table word spells put at the front of the queue; the table gives its rows no bits,
so no word spells one. -/
def State.withFetchWord (s : State) (nbits w : Nat) : State :=
  match decodeTableWord nbits w with
  | some c => { s with pending := c :: s.pending }
  | none => s

end Sys2Proof.Machine
end

