-- ==== Sys2Proof/Machine/Bar0Read.lean ====
section
/-! DEFINITION. Machine/Bar0Read.lean: what the host reads in BAR0 (R402, R417, R457, R540 to R543, R546, R560, R588), and
the on-die cores in the blocks of their map (R450). A read changes nothing; the one latch is TIME_LO_READ's (R546). -/

namespace Sys2Proof.Machine

/-- A flag as one bit of a register. -/
def flagBit (b : Bool) (i : Nat) : Nat := b.toNat * 2 ^ i

/-- One dword of a 64-bit register. -/
def halfOf (v : Nat) (high : Bool) : Nat := if high then v / 2 ^ 32 % 2 ^ 32 else v % 2 ^ 32

/-- The device control block (R541); `timeHi` is what the path latched (R546). -/
def State.controlWord (s : State) (off : Nat) (timeHi : Nat) : Nat :=
  let p := s.pcie
  if off = 0x00 then 0x4800 + 0xB1 * 2 ^ 16 + s.uhleg.devId.toNat * 2 ^ 24
  else if off = 0x04 then s.uhleg.trayId.toNat
  else if off = 0x08 then s.life.state.code + s.life.stage * 2 ^ 4 + s.led 0x1100 0x08 * 2 ^ 16
  else if off = 0x0C then flagBit p.accessErr 0 + flagBit p.hostReqErr 1
  else if off = 0x10 then p.accessErrOffset.toNat
  else if off = 0x14 then p.accessErrBe.toNat
  else if off = 0x18 then p.accessErrCount.toNat
  else if off = 0x1C then p.hostErrCount.toNat
  else if off = 0x20 then p.windowLo.toNat * 2 ^ 30
  else if off = 0x24 then p.windowHi.toNat
  else if off = 0x28 then flagBit p.up 0
  else if off = 0x30 then s.time.toNat % 2 ^ 32
  else if off = 0x34 then timeHi
  else 0

/-- The serving register block (R457); WO registers read zero (R12). -/
def ServeRegs.word (r : ServeRegs) (off : Nat) : Nat :=
  if off = 0x00 then r.status.toNat + r.error.toNat * 2 ^ 16
  else if off = 0x04 then r.heartbeat.toNat
  else if off = 0x08 then flagBit r.enable 0 + flagBit r.reqInHost 1 + flagBit r.tokInHost 2
  else if off = 0x10 ∨ off = 0x14 then halfOf r.reqBase.toNat (off == 0x14)
  else if off = 0x18 then r.reqLog2.toNat
  else if off = 0x1C then r.reqTail.toNat
  else if off = 0x20 then r.reqHead.toNat
  else if off = 0x28 ∨ off = 0x2C then halfOf r.tokBase.toNat (off == 0x2C)
  else if off = 0x30 then r.tokLog2.toNat
  else if off = 0x34 then r.tokTail.toNat
  else if off = 0x38 then r.tokHead.toNat
  else if off = 0x3C then flagBit r.reqTailErr 0 + flagBit r.tokHeadErr 1
  else if off = 0x44 then r.userqResult.toNat
  else if off = 0x48 ∨ off = 0x4C then halfOf r.modelAddr.toNat (off == 0x4C)
  else if off = 0x54 then r.modelStatus.toNat
  else 0

/-- A mailbox block (R588, R589): bytes beyond ANS_LENGTH read zero. -/
def Mailbox.word (m : Mailbox) (off : Nat) : Nat :=
  if off = 0x004 then m.state.toNat + flagBit m.mbxErr 4 + m.abort.toNat * 2 ^ 8
  else if off = 0x008 then m.command.toNat + m.sub.toNat * 2 ^ 8 + m.index.toNat * 2 ^ 16
  else if off = 0x00C then m.first.toNat + m.count.toNat * 2 ^ 16
  else if off = 0x010 then m.reqLength.toNat
  else if off = 0x014 then m.ansLength.toNat
  else if off = 0x018 then m.tag.toNat
  else if off = 0x01C then m.ansTag.toNat
  else if off = 0x020 then m.detail.toNat
  else if between 0x100 off 0x7FC then ofBytes (Sparse.read 0 m.request (off - 0x100) 4)
  else if between 0x800 off 0xFFC then
    ofBytes ((countFrom (off - 0x800) 4).map fun k => if k < m.ansLength.toNat then m.answer.get 0 k else 0)
  else 0

/-- A queue register block (R402). -/
def Queue.word (x : Queue) (off : Nat) : Nat :=
  if off = 0x00 then flagBit x.enable 0 + flagBit x.producerEnqueue 1 + flagBit x.ringHost 2
  else if off = 0x04 then x.state.code + flagBit x.stalled 3 + flagBit x.doorbellErr 4 + flagBit x.waitErr 5
  else if off = 0x08 ∨ off = 0x0C then halfOf x.ringBase.toNat (off == 0x0C)
  else if off = 0x10 then x.ringLog2.toNat
  else if off = 0x14 then x.head.toNat
  else if off = 0x18 then x.tail.toNat
  else if off = 0x20 then x.laneFirst.toNat + x.laneCount.toNat * 2 ^ 16
  else if off = 0x24 then x.eventBase.toNat + x.eventCount.toNat * 2 ^ 16
  else if off = 0x28 then x.arithFlags.toNat
  else if off = 0x2C then x.progress.toNat
  else if off = 0x30 then x.completed.toNat
  else if off = 0x34 then x.wakes.toNat
  else if between 0x40 off 0x5C then ofBytes ((padTo 0 32 x.faultRecord).drop (off - 0x40) |>.take 4)
  else 0

/-- An event counter's registers (R415, R417): only VALUE reads. -/
def Counter.word (x : Counter) (off : Nat) : Nat :=
  if off = 0 ∨ off = 4 then halfOf (x.value.toNat + flagBit x.err 63) (off == 4) else 0

/-- The MSI-X table and its pending bits (R540, R552). -/
def State.msixWord (s : State) (off : Nat) : Nat :=
  if off < 0x1000 then s.msixField off
  else if off < 0x1020 then
    ((countFrom 0 32).map fun i => flagBit (s.pcie.pendingBits.contains (8 * (off - 0x1000) + i)) i).foldl (· + ·) 0
  else 0

/-- A register of BAR0 as the host reads it, by its offset (R540, R542, R560): unlisted offsets read zero, and so does all
but the mailbox in PEAT, the serving block before stage 8, and the front end's blocks in HALTED. -/
def State.bar0Word (s : State) (off : Nat) : Nat :=
  if between 0x10000 off 0x10FFF then s.mailbox.word (off % 0x1000)
  else if s.life.state = .peat then 0
  else if off < 0x1000 then s.controlWord off (s.pcie.timeHi.get 0 0).toNat
  else if off < 0x2000 then
    if s.life.state = .starting ∧ s.life.stage < 8 then 0 else s.serve.word (off % 0x1000)
  else if between 0x20000 off 0x21FFF then s.msixWord (off - 0x20000)
  else if s.life.state = .halted then 0
  else if between 0x100000 off 0x103FFF then (s.queue (off % 0x4000 / 256)).word (off % 256)
  else if between 0x200000 off 0x21FFFF then (s.counter (off % 0x20000 / 32)).word (off % 32)
  else 0

/-- The bytes that a read of any length returns (R543), but for TIME_HI in a pair with TIME_LO. -/
def State.bar0Bytes (s : State) (off n : Nat) : List Byte :=
  (countFrom off n).map fun a => byte (s.bar0Word (a / 4 * 4) / 2 ^ (8 * (a % 4)))

/-- An aligned 64-bit read of TIME_LO and TIME_HI (R546). -/
def State.bar0Time (s : State) : List Byte := toBytes 8 s.time.toNat

/-- The rows of the core physical map (R450). -/
inductive CoreRegion where
  | dram | bootRom | queues | counters | timers | interrupts | serving | deviceKey | ledgerPort | host
  deriving DecidableEq, Repr

/-- The row of the core physical map in which an address lies (R450); an access to an address of none raises an access fault on the
core. -/
def coreRegion (a : Nat) : Option CoreRegion :=
  if a < 2 ^ 37 then some .dram
  else if between 0x2000000000 a 0x200000FFFF then some .bootRom
  else if between 0x2001000000 a 0x2001003FFF then some .queues
  else if between 0x2002000000 a 0x200201FFFF then some .counters
  else if between 0x2003000000 a 0x200300FFFF then some .timers
  else if between 0x2004000000 a 0x20043FFFFF then some .interrupts
  else if between 0x2005000000 a 0x2005000FFF then some .serving
  else if between 0x2006000000 a 0x200600000F then some .deviceKey
  else if between 0x2007000000 a 0x2007000FFF then some .ledgerPort
  else if between (2 ^ 47) a (2 ^ 48 - 1) then some .host
  else none

/-- A core may read an address in its mode (R134, R450): no hole, and the boot ROM and the device key in machine mode only. -/
def coreReads (machine : Bool) (a : Nat) : Bool :=
  match coreRegion a with
  | none => false
  | some .dram => populated a 1
  | some .bootRom => machine
  | some .deviceKey => machine
  | some _ => true

/-- The registers of BAR0 and the device key as a core reads them (R326, R402, R417, R450, R457): none where the address is of no such
block, or the read faults. -/
def State.coreWord (s : State) (machine : Bool) (a : Nat) : Option Nat :=
  if coreReads machine a then
    match coreRegion a with
    | some .queues => some ((s.queue (a % 0x4000 / 256)).word (a % 256))
    | some .counters => some ((s.counter (a % 0x20000 / 32)).word (a % 32))
    | some .serving => some (s.serve.word (a % 0x1000))
    | some .deviceKey => some (ofBytes ((s.fuses.sipKey.drop (a % 16 / 4 * 4)).take 4))
    | some .ledgerPort => some (s.corePort.word (a % 0x1000))
    | _ => none
  else none

/-- Dwords of the configuration header that hold values of this part (R536): the identifiers, class and revision, the
subsystem, and the kinds of the two BARs as they read with no address set. -/
def configHeader (off : Nat) : Option Nat :=
  if off = 0x00 then some 0x48001F3B
  else if off = 0x08 then some 0x120000B1
  else if off = 0x10 then some 0x4
  else if off = 0x18 then some 0xC
  else if off = 0x2C then some 0x00081F3B
  else if off = 0x20 ∨ off = 0x24 ∨ off = 0x30 then some 0
  else none

end Sys2Proof.Machine
end

