-- ==== Sys2Proof/Safety.lean ====
section
/-! DEFINITION. Safety.lean: what a safe run is, and what statements about commands share: what stays as it was, when a
queue offers a record, when a Ledger request is accepted. -/

namespace Sys2Proof

open Machine

/-- The outcome of a step is a next state. -/
def Safety.goesOn (o : Host.Outcome State Fault Refusal) : Prop := ∃ s, o = .next s

/-- A run of k steps meets no fault and no refusal. -/
def Safety.runs : Nat → State → Prop
  | 0, _ => True
  | k + 1, s => ∃ t, Machine.step s = .next t ∧ Safety.runs k t

/-- The canonical form of the memory. -/
abbrev Safety.memoryOk (s : State) : Prop := Memory.wf s.mem = true

/-- What every state of a run keeps: memory in its canonical form (R160), SERVE_OK released in IN_SERVICE alone (R100) and low
during a drain (R112, R113), and a stage in progress in STARTING alone (R101). -/
def Safety.Inv (s : State) : Prop :=
  Safety.memoryOk s ∧ (s.life.serveOkLow = false → s.life.state = .inService) ∧
    (s.life.drain.isSome = true → s.life.serveOkLow = true) ∧ (s.life.stage ≠ 0 → s.life.state = .starting)

/-! ### What stays as it was -/

/-- Power, life, sensors, the management side, fuses, TIME and the test access port are as they were. -/
def Safety.sameDevice (s t : State) : Prop :=
  t.pending = s.pending ∧ t.power = s.power ∧ t.life = s.life ∧ t.sensors = s.sensors ∧ t.log = s.log ∧
    t.uhleg = s.uhleg ∧ t.update = s.update ∧ t.mailbox = s.mailbox ∧ t.corePort = s.corePort ∧ t.can = s.can ∧
    t.unlock = s.unlock ∧ t.fuses = s.fuses ∧ t.time = s.time ∧ t.jtag = s.jtag

/-- The serving registers, the runtime's data and the Starter tree are as they were, and so are the cores but for the interrupts
that wait for them. -/
def Safety.sameServing (s t : State) : Prop :=
  t.serve = s.serve ∧ t.runtime = s.runtime ∧ t.tree = s.tree ∧
    t.cores = { s.cores with sources := t.cores.sources }

/-- Every byte of memory, the controllers and the shared cache are as they were. -/
def Safety.sameMemory (s t : State) : Prop := t.mem = s.mem ∧ t.memctl = s.memctl ∧ t.cache = s.cache

/-- The cells and the Reed arrays are as they were. -/
def Safety.sameUnits (s t : State) : Prop := t.cells = s.cells ∧ t.reed = s.reed

/-- The ports and what they keep are as they were. -/
def Safety.samePorts (s t : State) : Prop := t.ports = s.ports ∧ t.links = s.links

/-! ### Serving -/

/-- No cell of a configured pool has fewer free frames than its low-water mark (R343). -/
def Safety.roomy (s : State) : Prop :=
  ∀ p d c, s.pool p = some d → c ∈ d.cells → s.led 0x5400 0x10 p ≤ s.freeFrames p d c

/-! ### Queue commands -/

/-- No granule of the memory and no line of a slice holds an uncorrectable error. -/
def Safety.sound (s : State) : Prop := s.memctl.lost = [] ∧ ∀ l ∈ s.cache.lines, l.bad = false

/-- In every cell of a mask nothing keeps a record of a queue waiting: its sub-queue is empty, and no command that works there
uses the same accumulator lanes or the expander (R209, R256, R406). -/
def Safety.free (s : State) (q : QueueId) (mask : BitVec 16) (r : List Byte) : Prop :=
  ∀ c, c ∈ cellsOf mask → s.subQueue c q = [] ∧ s.hazard c q r = false

/-- What the hardware meets is nothing: no wrong codeword, no error of a cell, a slice or the fabric. -/
def Safety.clean (hw : Hw) : Prop :=
  hw.mem = [] ∧ hw.cellBad = [] ∧ hw.cellFixed = [] ∧ hw.sliceBad = [] ∧ hw.sliceFixed = [] ∧
    hw.flitFixed = []

/-- The record r stands at a command's place and is read whole, may be issued now, spells the command, and begins at once in
every cell that it names; no error is met (R403, R405, R406, R431). -/
def Safety.offers (s : State) (x : Issue) (opcode : Nat) (spells : List Byte → Prop) (r : List Byte) (hw : Hw) : Prop :=
  s.fetch x = .record r hw ∧ (s.readRecord x).2 = true ∧ Safety.sound s ∧ s.refusedRecord x.queue r = none ∧
    recNat r 0 1 = opcode ∧ headerOf r = x.header ∧ spells r ∧ Safety.free s x.queue x.header.mask r ∧ Safety.clean hw

/-- Memory and its controllers are as they were, and the caches as the read of the command's record left them (R173). -/
def Safety.onlyFetched (s t : State) (x : Issue) : Prop :=
  t.mem = s.mem ∧ t.memctl = s.memctl ∧ t.cache = (s.readRecord x).1.cache

/-- A record of the ring has left it: HEAD is one further (R402). -/
def Safety.leftRing (s t : State) (x : Issue) : Prop :=
  ∀ i, x.place = .ring i → (t.queue x.queue).head = (s.queue x.queue).head + 1

/-- A counter after the completion of a command with a header (R405, R416). -/
def Safety.signalled (h : Header) (c : Nat) (k : Counter) : Counter :=
  if h.enable ∧ h.counter.toNat = c then { k with value := BitVec.ofNat 63 (min (2 ^ 63 - 1) (k.value.toNat + 1)) } else k

/-- A queue's registers but those that name its place and progress. -/
def Safety.sameSettings (a b : Queue) : Prop :=
  b.enable = a.enable ∧ b.producerEnqueue = a.producerEnqueue ∧ b.ringHost = a.ringHost ∧ b.ringBase = a.ringBase ∧
    b.ringLog2 = a.ringLog2 ∧ b.tail = a.tail ∧ b.laneFirst = a.laneFirst ∧ b.laneCount = a.laneCount ∧
    b.eventBase = a.eventBase ∧ b.eventCount = a.eventCount ∧ b.doorbellErr = a.doorbellErr ∧
    b.faultRecord = a.faultRecord

/-- What a command of the cells, the Oven or an array leaves alone whatever it meets: the device, serving, and the place of
every queue but its own. -/
def Safety.actsInFront (s t : State) (x : Issue) : Prop :=
  Safety.sameDevice s t ∧ Safety.sameServing s t ∧ Safety.leftRing s t x

/-- A command of the Oven: beside the front end, no more than counters, interrupts and messages change. -/
def Safety.actsInOven (s t : State) (x : Issue) : Prop :=
  Safety.actsInFront s t x ∧ Safety.onlyFetched s t x ∧ Safety.sameUnits s t ∧ Safety.samePorts s t

/-- Of the commands of a queue in flight, those at other places than a command's. -/
def Safety.elsewhere (s : State) (x : Issue) : List InFlight := (s.work x.queue).inFlight.filter fun f => f.place != x.place

/-- A command of the units is in flight, the youngest of its queue, and waits for n operations of arrays (R406); `launch` is the
readout that it still has to make, `ends` what it writes when it completes (R255, R306). -/
def Safety.flying (s t : State) (x : Issue) (opcode : Nat) (n : Nat := 0) (launch : Option Launch := none)
    (ends : List (Nat × List Byte) := []) : Prop :=
  (t.work x.queue).inFlight.length = (s.work x.queue).inFlight.length + 1 ∧ Safety.elsewhere t x = Safety.elsewhere s x ∧
    ∃ f, (t.work x.queue).inFlight.getLast? = some f ∧ f.place = x.place ∧ f.opcode = opcode ∧ f.header = x.header ∧
      f.waitsFor = n ∧ f.hostReads = [] ∧ f.attend = launch ∧ f.fetches = [] ∧ f.ended = [] ∧ f.onEnd = ends

/-- The record written for an opcode, a header and operands has 64 bytes, and reading it gives the three back (R405). -/
def Safety.roundTrip {α : Type} (read : List Byte → α) (body : α → List Byte) : Prop :=
  ∀ (opcode : Byte) (h : Header) (o : α), (recordOf opcode h (body o)).length = 64 ∧
    rec8 (recordOf opcode h (body o)) 0 = opcode ∧ headerOf (recordOf opcode h (body o)) = h ∧
    read (recordOf opcode h (body o)) = o

/-! ### Atomics -/

/-- An atomic of R178 on cacheable memory of this device: the new value, the old value where FETCH asks for it, and nothing
else of memory; on another device's memory, nothing of this device's memory changes. -/
def Safety.atomicLaw (mk : Issue → AtomicOps → Instr) (code : Nat) (new : Nat → Nat → Nat → Nat) : Prop :=
  ∀ (x : Issue) (o : AtomicOps) (s : State) (r : List Byte) (hw : Hw),
    Safety.offers s x 0x11 (fun r => spellsAtomic o code r = true) r hw → s.atomicCheck x o code = none →
    (∀ a, s.target o.addr.toNat (atomicWidth code) = .here a → ∃ t,
      exec (mk x o) s = .next t ∧
        t.memNat a (atomicWidth code) = new (s.memNat a (atomicWidth code)) (cutOperand code o.value.toNat)
          (cutOperand code o.compare.toNat) ∧
        (∀ b, b < a ∨ a + atomicWidth code ≤ b → t.memRead b 1 = s.memRead b 1) ∧
        (AtomicOps.fetch o = true →
          t.bufNat (theCell x.header.mask) o.result.toNat (atomicWidth code) = s.memNat a (atomicWidth code) ∧
          ∀ off, off < o.result.toNat ∨ o.result.toNat + atomicWidth code ≤ off →
            t.bufRead (theCell x.header.mask) off 1 = s.bufRead (theCell x.header.mask) off 1) ∧
        (AtomicOps.fetch o = false → t.cells = s.cells) ∧ t.cells.acc = s.cells.acc ∧ t.cells.stat = s.cells.stat ∧
        t.reed = s.reed ∧ Safety.samePorts s t ∧ Safety.flying s t x 0x11 ∧ Safety.actsInFront s t x) ∧
    ∀ p a, s.target o.addr.toNat (atomicWidth code) = .away p a → ∃ t, exec (mk x o) s = .next t ∧
      Safety.onlyFetched s t x ∧ Safety.sameUnits s t ∧ Safety.actsInFront s t x

/-! ### SIEVE -/

/-- Bytes from one result vector of a SIEVE command to the next. -/
def Safety.resultStep (o : SieveOps) (p : SieveSpans) : Nat := if p.packedD then p.d else o.stride.toNat

/-- The vectors of a SIEVE command do not meet: there is one, or no result covers another or a source. -/
def Safety.apart (o : SieveOps) (p : SieveSpans) : Prop :=
  o.vectors.toNat = 1 ∨
    let k := o.vectors.toNat - 1
    let last := o.d.toNat + k * Safety.resultStep o p + p.d
    let clear (base n : Nat) : Prop := last ≤ base ∨ base + k * o.stride.toNat + n ≤ o.d.toNat
    p.d ≤ Safety.resultStep o p ∧ (o.aSource = 1 ∨ clear o.a.toNat p.a) ∧ (p.b = 0 ∨ clear o.b.toNat p.b) ∧
      (p.c = 0 ∨ clear o.c.toNat p.c)

/-- A byte of a cell buffer that no result vector covers. -/
def Safety.noResult (o : SieveOps) (p : SieveSpans) (off : Nat) : Prop :=
  ∀ v, v < o.vectors.toNat →
    off < o.d.toNat + v * Safety.resultStep o p ∨ o.d.toNat + v * Safety.resultStep o p + p.d ≤ off

/-- A SIEVE command in one cell: every result vector holds the bytes that `result` computes from the state before, no other
byte of a buffer changes, and neither do accumulators, statistics or memory. -/
def Safety.sieveLaw (mk : Issue → SieveOps → Instr) (p : SieveOps → SieveSpans)
    (result : State → SieveOps → Nat → Nat → List Byte) : Prop :=
  ∀ (x : Issue) (o : SieveOps) (s : State) (r : List Byte) (hw : Hw) (c : Nat),
    Safety.offers s x 0x22 (fun r => readSieve r = o ∧ recNat r 8 1 = (p o).code) r hw → s.sieveCheck x o (p o) = none →
    cellsOf x.header.mask = [c] → ∃ t, exec (mk x o) s = .next t ∧
      (Safety.apart o (p o) → ∀ v, v < o.vectors.toNat →
        t.bufRead c (o.d.toNat + v * Safety.resultStep o (p o)) (p o).d = result s o c v) ∧
      (∀ off, off < 2 ^ 23 → Safety.noResult o (p o) off → t.bufRead c off 1 = s.bufRead c off 1) ∧
      (∀ c' off, c' ≠ c → off < 2 ^ 23 → t.bufRead c' off 1 = s.bufRead c' off 1) ∧
      t.cells.acc = s.cells.acc ∧ t.cells.stat = s.cells.stat ∧ t.reed = s.reed ∧ Safety.onlyFetched s t x ∧
      Safety.samePorts s t ∧ Safety.flying s t x 0x22 ∧ Safety.actsInFront s t x

/-- Vector v of the second operand of an elementwise operation. -/
def Safety.operandB (s : State) (o : SieveOps) (p : SieveSpans) (c v : Nat) : List F32 :=
  if p.b = 0 then List.replicate o.n.toNat (if p.imm then o.immF else 0)
  else s.elements c (SieveOps.inFmt o) (o.b.toNat + v * o.stride.toNat) o.n.toNat

/-- Vector v of the third operand of an elementwise operation. -/
def Safety.operandC (s : State) (o : SieveOps) (p : SieveSpans) (c v : Nat) : List F32 :=
  if p.c = 0 then List.replicate o.n.toNat 0
  else s.elements c (SieveOps.inFmt o) (o.c.toNat + v * o.stride.toNat) o.n.toNat

/-- An elementwise SIEVE command writes f of each element, in the output format (R48, R410). -/
def Safety.elementLaw (mk : Issue → SieveOps → Instr) (code : Nat) (f : SieveOps → F32 → F32 → F32 → F32) : Prop :=
  Safety.sieveLaw mk (fun o => elementSpans o code) fun s o c v =>
    let p := elementSpans o code
    (((s.sieveA o c code v o.n.toNat).zip ((Safety.operandB s o p c v).zip (Safety.operandC s o p c v))).map fun e =>
      (((outFmtOf (SieveOps.outFmt o)).getD .f32).convert (f o e.1 e.2.1 e.2.2)).1).flatten

/-- Spans of n bytes at a and m bytes at b do not meet. -/
def Safety.off (a n b m : Nat) : Prop := a + n ≤ b ∨ b + m ≤ a

/-- Beside a byte range of one cell's buffer, the cells hold what they held: no other byte of a buffer changed, and no
accumulator or statistics row. -/
def Safety.onlyBuffer (s t : State) (c : Nat) (written : Nat → Prop) : Prop :=
  (∀ off, off < 2 ^ 23 → ¬ written off → t.bufRead c off 1 = s.bufRead c off 1) ∧
    (∀ c' off, c' ≠ c → off < 2 ^ 23 → t.bufRead c' off 1 = s.bufRead c' off 1) ∧
    t.cells.acc = s.cells.acc ∧ t.cells.stat = s.cells.stat

/-- What the commands of one unit leave alone: memory, the ports, and what `actsInFront` names. -/
def Safety.actsInUnits (s t : State) (x : Issue) : Prop :=
  Safety.onlyFetched s t x ∧ Safety.samePorts s t ∧ Safety.actsInFront s t x

/-- A queue fault ended the command: its queue is RESETTING, and its record names the opcode and the cause (R435, R436). -/
def Safety.faulted (t : State) (x : Issue) (opcode cause : Nat) : Prop :=
  (t.queue x.queue).state = .resetting ∧ (t.queue x.queue).faultRecord.take 2 = [byte cause, byte opcode]

/-! ### The mesh and the host -/

/-- Bytes of a transaction handed to a port where nothing waits: in flits of its channel, in order, full ones before the last,
those sent kept for replay, the other bytes waiting (R499, R502, R504). -/
def Safety.handed (s t : State) (p : PortId) (kind : Nat) (bytes : List Byte) : Prop :=
  ∃ sent : List (List Byte), sent.flatten ++ (t.port p).waiting.flatMap Waiting.bytes = bytes ∧
    (∀ w ∈ (t.port p).waiting, w.kind = kind) ∧ (∀ b ∈ sent.dropLast, b.length = 252) ∧ (∀ b ∈ sent, b.length ≤ 252) ∧
    (t.port p).replay.map (fun x => x.2.drop 4) = (s.port p).replay.map (fun x => x.2.drop 4) ++ sent.map (padTo 0 252)

/-- A peer's request has been taken from its port; the cells, the queues and every other port are as they were. -/
def Safety.served (s t : State) (p : PortId) (l : List (List Byte × Bool)) : Prop :=
  (t.link p).requests = l ∧ (∀ n, n ≠ p.val → t.port n = s.port n ∧ t.link n = s.link n) ∧ t.front = s.front ∧
    Safety.sameUnits s t ∧ Safety.sameDevice s t ∧ Safety.sameServing s t

/-- A response has been taken from its port, and the request with its tag is outstanding no longer. -/
def Safety.answeredOnce (s t : State) (p : PortId) (o : Outstanding) (l : List (List Byte × Bool)) : Prop :=
  (t.link p).responses = l ∧ (t.link p).outstanding = ((s.link p).outstanding.filter fun x => x.tag != o.tag) ∧
    (∀ n, n ≠ p.val → t.port n = s.port n ∧ t.link n = s.link n) ∧ t.reed = s.reed ∧ Safety.sameServing s t

/-- Commands in flight after one answer to the one at a place (R406). -/
def Safety.oneCame (l : List InFlight) (place : Place) : List InFlight :=
  l.map fun f => if f.place = place then { f with waitsFor := f.waitsFor - 1 } else f

/-- The link has gone from up to down (R538, R554): configuration space is reset, and the registers of BAR0 and everything
behind the endpoint are as they were; a queue with a ring in host memory may lose its turn at the Oven (R431). -/
def Safety.linkReset (s t : State) : Prop :=
  t.pcie = { s.pcie with
      up := false, speed := 0, width := 0, flit := false, d3hot := false, msixEnable := false, functionMask := false
      bar2Log := 30, msixTable := [], aerStatus := 0, pendingBits := t.pcie.pendingBits } ∧
    t.led 0x7800 0x10 = pastTop (8 * entryWidth 0x7800 0x10) (s.led 0x7800 0x10 + 1) ∧
    t.front = { s.front with sliceOver := t.front.sliceOver } ∧ Safety.sameServing s t ∧ Safety.sameUnits s t ∧ Safety.sameMemory s t

/-- No vector that could be sent is pending (R552). -/
def Safety.pendingSent (t : State) : Prop := ∀ v ∈ t.pcie.pendingBits, t.msixOpen v = false

/-! ### Ledger requests -/

/-- A request reaches Uhleg whole on its path (R573, R582): it waits there, Uhleg runs, and no segment is to follow. -/
def Safety.asks (s : State) (c : LedgerCall) (r : Request) : Prop :=
  (s.arrive c.path).requestAt c.path = some r ∧ s.uhlegRuns = true ∧
    match c.path with
    | .can _ _ => r.segmented = false
    | _ => True

/-- The request passes every check of R569 for the entry it names, and what it must store is stored. -/
def Safety.accepted (s : State) (c : LedgerCall) (r : Request) (en : Entry) : Prop :=
  Safety.asks s c r ∧ r.command = 2 ∧ (s.arrive c.path).commonAbort r = none ∧ findEntry r.index r.sub = some en ∧
    (s.arrive c.path).writeAbort r en = none ∧ c.storeOk = true

/-- A mailbox block holds an answer (R569, R589): ANSWERED, abort code, detail, tag and data. -/
def Safety.holdsAnswer (m : Mailbox) (tag : Half) (a : Answer) : Prop :=
  m.state = 2 ∧ m.abort = byte a.abort ∧ m.detail = BitVec.ofNat 32 a.detail ∧ m.ansTag = tag ∧
    m.ansLength = BitVec.ofNat 16 a.data.length ∧ Sparse.read 0 m.answer 0 a.data.length = a.data

/-- The frames of an answer have left on CAN FD (R583, R584): the RESPONSE, and a segment for each 60 bytes of data that do
not fit into it. -/
def Safety.sentAnswer (s t : State) (ident : BitVec 29) (r : Request) (a : Answer) : Prop :=
  if a.data.length ≤ 48 then
    .can (BitVec.ofNat 29 (s.replyIdent 0x05 ident)) (canFrame (responseHeader r a ++ a.data)) ∈ t.out
  else
    .can (BitVec.ofNat 29 (s.replyIdent 0x05 ident)) (responseHeader r a) ∈ t.out ∧
      ∀ i, i < (chunks 60 a.data).length →
        .can (BitVec.ofNat 29 (s.replyIdent 0x06 ident)) (canFrame (toBytes 2 i ++ [0, 0] ++ (chunks 60 a.data).getD i [])) ∈
          t.out

/-- A request is answered on the path it came by (R573, R583, R589). -/
def Safety.answered (s t : State) (c : LedgerCall) (r : Request) (a : Answer) : Prop :=
  match c.path with
  | .mailbox => Safety.holdsAnswer t.mailbox s.mailbox.tag a
  | .corePort _ => Safety.holdsAnswer t.corePort (s.arrive c.path).corePort.tag a
  | .can ident _ => Safety.sentAnswer s t ident r a
  | .download q => ∀ d, (s.can.downloads.find? fun x => x.requester == q.val) = some d → s.can.busOff = false →
      Safety.sentAnswer s t d.ident r a

/-- What a request that was served leaves of what it does not name (R567 to R571, R596): it is counted in 0x8000:26; the rails, the
sensors, memory, the cells and arrays, the queues, the serving side, the ports and the test access port are as they were, and so
is every value below index 0x8000 but those of the entries named; the fuses stay where no image of Uhleg is on trial. -/
def Safety.ledgerOnly (s t : State) (entries : List (Nat × Nat)) : Prop :=
  t.led 0x8000 0x26 = pastTop (8 * entryWidth 0x8000 0x26) (s.led 0x8000 0x26 + 1) ∧ t.pending = s.pending ∧
    t.power = s.power ∧ t.sensors = s.sensors ∧ Safety.sameMemory s t ∧ Safety.sameUnits s t ∧ t.front = s.front ∧
    Safety.sameServing s t ∧ Safety.samePorts s t ∧ t.jtag = s.jtag ∧ (s.uhleg.trial = false → t.fuses = s.fuses) ∧
    ∀ index sub e, index < 0x8000 → sub < 256 → e < 65536 → (index, sub) ∉ entries → t.led index sub e = s.led index sub e

/-- The write of a setting, by the command of its own row (R571): each element takes its value, the request is answered
without an abort code, and the device state stays. -/
def Safety.settingTakes (mk : LedgerCall → Instr) (index : Nat) (subs : List Nat) (fits : State → Nat → Prop) : Prop :=
  ∀ (c : LedgerCall) (s : State) (r : Request) (en : Entry), Safety.accepted s c r en → r.index = index → r.sub ∈ subs →
    fits s (r.value en 0) → ∃ t, exec (mk c) s = .next t ∧
      (∀ i, i < r.elements en → t.led index r.sub (r.first + i) = keptValue index r.sub (r.value en i)) ∧
      Safety.answered s t c r ⟨0, 0, []⟩ ∧ t.life.state = s.life.state ∧
      t.time = s.time ∧ t.jtag = s.jtag

end Sys2Proof
end

