-- ==== Sys2Proof/Certificates/Slice0/Obligations.lean ====
section
/-! DEFINITION. Certificates/Slice0/Obligations.lean: the statements about the part. Each says what the rules it names say;
what rests on a choice of the model names the log entry. -/

open Sys2Proof Sys2Proof.Machine

/-! ### The machine -/

/-- A step runs the command at the front of the queue on the rest of it (log entry 1). -/
def Obligations.StepRunsFrontCommand : Prop :=
  ∀ (c : Instr) (rest : List Instr) (s : State), s.pending = c :: rest → step s = exec c { s with pending := rest }

/-- With no command waiting a step is one edge of UCLK: TIME advances by one where UCLK runs, and nothing but the
serving heartbeat changes with it (log entries 1, 2 and 47: the model's choice of what an idle step is). -/
def Obligations.IdleStepIsOneClock : Prop :=
  ∀ s : State, s.pending = [] → ∃ t, step s = .next t ∧
    (if s.power.inWindow.vaux33 = true ∧ s.power.clocksStopped = false then
      t = { s with
        time := s.time + 1, power := { s.power with uclk := s.power.uclk + 1 }
        serve := { s.serve with heartbeat := t.serve.heartbeat } }
    else t = s)

/-- The part without power: OFF, no rail in its window, nothing waiting, memory empty, every queue DISABLED with its
lane window and event range by number, the serving status 0, IDCODE in the test access port. -/
def Obligations.ResetState : Prop :=
  State.reset.life.state = .off ∧ State.reset.power.inWindow = RailMarks.none ∧ State.reset.pending = [] ∧
    State.reset.mem = [] ∧ State.reset.serve.status = 0 ∧ State.reset.jtag.selected = 1 ∧ State.reset.out = [] ∧
    (∀ q : QueueId, (State.reset.queue q).state = .disabled ∧
      ((State.reset.queue q).laneCount.toNat = if q.val < 8 then 256 else 0) ∧
      ((State.reset.queue q).eventBase.toNat = if q.val < 8 then 64 * q.val else 0) ∧
      ((State.reset.queue q).eventCount.toNat = if q.val < 8 then 64 else 0)) ∧
    ∀ a, State.reset.memRead a 1 = [0]

/-- The invariant holds after reset. -/
def Obligations.ResetInvariant : Prop :=
  Safety.Inv State.reset

/-- Every step keeps the invariant: memory stays canonical, SERVE_OK is released in IN_SERVICE alone and low while a drain is
under way, and a stage is in progress in STARTING alone. -/
def Obligations.StepKeepsInvariant : Prop :=
  ∀ s t : State, Safety.Inv s → step s = .next t → Safety.Inv t

/-- No command touches the queue of waiting commands, lowers the rollback counter, or changes anything else that is
fused or written at manufacture. -/
def Obligations.CommandsKeepQueueAndFuses : Prop :=
  ∀ (c : Instr) (s t : State), exec c s = .next t → t.pending = s.pending ∧
    s.fuses.rollback.toNat ≤ t.fuses.rollback.toNat ∧ t.fuses = { s.fuses with rollback := t.fuses.rollback }

/-! ### Rails, clocks, RESET_N -/

/-- Standby power arrives (R79, R98, R727): VAUX33 is marked, the root PLL has locked, Uhleg has booted with the straps
as sampled, and the device is in STANDBY or PEAT, in PEAT where BOOT_SAFE says so; TIME, the fuses and the test access port are
as they were. In STANDBY memory, cells, arrays, queues, ports and the serving side are not touched; in PEAT (R99) the main
domain is in reset: the queues, the serving side, the cores and the ports are as a start finds them, while memory, the cells
and the conductances of the Reed arrays stay. Without VAUX33 (R92, R98, R648, R650) the device is OFF: TIME, memory, the
queues, the cells, the serving registers, the cores and the test access port are as at reset; the value store, the log ring,
the fuses, the banks and the Reed conductances stay. -/
def Obligations.StandbyPowerComesAndGoes : Prop :=
  (∀ (boot : BootSample) (s : State), s.life.state = .off → ∃ t, exec (.vaux33EntersWindow boot) s = .next t ∧
    t.power.inWindow.vaux33 = true ∧ t.power.rootLock = true ∧ t.power.clocksStopped = false ∧
    (t.life.state = .peat ∨ (t.life.state = .standby ∧ boot.bootSafe = false)) ∧
    t.uhleg.devId = boot.devId ∧ t.uhleg.trayId = boot.trayId ∧ t.uhleg.boots = s.uhleg.boots + 1 ∧
    t.life.bootSafe = boot.bootSafe ∧ t.fuses = s.fuses ∧ t.jtag = s.jtag ∧ t.time = s.time ∧
    (t.life.state = .standby → Safety.sameMemory s t ∧ Safety.sameUnits s t ∧ t.front = s.front ∧ Safety.samePorts s t ∧
      Safety.sameServing s t) ∧
    (t.life.state = .peat → t.front = .blank ∧ t.serve = .blank ∧ t.runtime = .blank ∧ t.tree = .blank ∧ t.cores = .blank ∧
      t.ports = [] ∧ t.links = [] ∧ t.mem = s.mem ∧ t.cells = s.cells ∧ t.reed.cond = s.reed.cond)) ∧
  (∀ s : State, (s.power.inWindow.vaux33 = false → exec .vaux33LeavesWindow s = .next s) ∧
    (s.power.inWindow.vaux33 = true → ∃ t, exec .vaux33LeavesWindow s = .next t ∧
      t.life.state = .off ∧ t.power.inWindow.vaux33 = false ∧ t.time = 0 ∧ t.mem = [] ∧ t.front = State.reset.front ∧
      t.cells = State.reset.cells ∧ t.jtag = State.reset.jtag ∧ t.serve = State.reset.serve ∧ t.cores = .blank ∧
      t.ledger.live = [] ∧
      t.ledger.store = s.ledger.store ∧ t.log.front = [] ∧ t.log.ring = s.log.ring ∧ t.fuses = s.fuses ∧
      t.reed.cond = s.reed.cond ∧ t.reed.acc = [] ∧
      (∀ b, t.update.bank b = s.update.bank b) ∧ t.unlock = State.reset.unlock ∧ t.pending = s.pending ∧
      ∀ r, r ≠ .vaux33 → t.power.inWindow.get r = s.power.inWindow.get r))

/-- The marks of the rails follow their windows (R74, R77): rails named with a voltage inside their window become
marked, one named outside it loses its mark, no other mark changes, whatever the voltage is; a main rail that comes ahead of
its turn is a power-sequencing event, recorded by its row, which blocks RESET_N (R80). A class T halt (R677, R681): a main
rail that leaves its window in READY or IN_SERVICE halts the device at once, with reason 0x2001, memory not readable, SERVE_OK
low, HALT_N asserted, the queues, the serving side, the cores and the ports as a start finds them, the endpoint in reset; the
conductances of the Reed arrays stay (R103). -/
def Obligations.RailsEnterAndLeaveTheirWindows : Prop :=
  ((∀ (rails : List (Rail × Int)) (peat : Option Word) (s : State),
      ∃ t, exec (.railEntersWindow rails peat) s = .next t ∧
        (∀ r, t.power.inWindow.get r =
          (s.power.inWindow.get r || rails.any fun x => x.1 == r && r != .vaux33 && s.inWindow r x.2)) ∧
        Safety.sameMemory s t ∧ Safety.sameUnits s t ∧ t.front = s.front ∧ t.fuses = s.fuses) ∧
  (∀ (r b : Rail) (mv : Int) (peat : Option Word) (s : State), s.awake = true → r ≠ .vaux33 → b ∈ railsBefore r →
      b ≠ r → s.power.inWindow.get r = false → s.power.inWindow.get b = false → s.inWindow r mv = true →
      ∃ t, exec (.railEntersWindow [(r, mv)] peat) s = .next t ∧ t.power.sequenceBlock = some (railRow r)) ∧
  ∀ (r : Rail) (mv : Int) (s : State), ∃ t, exec (.railExcursion r mv) s = .next t ∧
      t.power.inWindow = if r ≠ .vaux33 ∧ s.inWindow r mv = false then s.power.inWindow.set false r else s.power.inWindow) ∧
  (∀ (r : Rail) (mv : Int) (s : State), r ∈ mainRails → s.power.inWindow.get r = true →
    s.inWindow r mv = false → s.awake = true → s.serving = true → ∃ t, exec (.railExcursion r mv) s = .next t ∧
      t.life.state = .halted ∧ t.life.haltAsserted = true ∧ t.life.serveOkLow = true ∧ t.life.heldInReset = true ∧
      t.life.causes = [] ∧ t.led 0x1100 0x08 = 0x2001 ∧ t.led 0x1100 0x09 = 0 ∧ t.led 0x2000 0x20 = 0 ∧
      t.front = .blank ∧ t.serve = .blank ∧ t.runtime = .blank ∧ t.tree = .blank ∧ t.cores = .blank ∧ t.pcie = .blank ∧
      t.ports = [] ∧ t.power.mainClocks = false ∧ t.sensors.refreshing = false ∧ t.reed.cond = s.reed.cond ∧
      t.reed.ops = [] ∧ t.fuses = s.fuses ∧ t.time = s.time ∧ t.jtag = s.jtag)

/-- Loss of root PLL lock begins the holdover and is a cause of a class D halt (R71, R90, R677); its end with REFCLK
absent stops every clock (R90); the return of lock ends both and, after a stop, boots Uhleg (R90, R638). Loss of a lane
PLL's lock (R91, R677, R735): the port's lock bit falls; with REFCLK good it is a cause of a class D halt in READY and
IN_SERVICE and ends a start, with REFCLK bad it changes no state of the device. -/
def Obligations.LossesOfLock : Prop :=
  ((∀ (refclk : Bool) (s : State), s.awake = true → s.power.rootLock = true → ∃ t,
    exec (.rootPllUnlock refclk) s = .next t ∧ t.power.rootLock = false ∧ t.power.holdover = true ∧
      t.power.refclk = refclk ∧ t.power.clocksStopped = false ∧
      (s.serving = true → t.life = { s.life with causes := s.life.causes ++ [⟨0x1701, 0, List.replicate 8 0⟩] })) ∧
  (∀ s : State, s.awake = true → s.power.holdover = true → s.power.refclk = false →
    ∃ t, exec .holdoverExpiry s = .next t ∧
    t.power.clocksStopped = true ∧ t.power.holdover = false ∧ t.power.mainClocks = false ∧ t.power.laneLock = 0 ∧
      (s.serving = true → s.life.causes ≠ [] → t.life.state = .halted)) ∧
  ∀ (boot : BootSample) (s : State), s.power.inWindow.vaux33 = true → s.power.rootLock = false → ∃ t,
    exec (.clockReturn boot) s = .next t ∧ t.power.rootLock = true ∧ t.power.holdover = false ∧
      t.power.clocksStopped = false ∧
      t.uhleg.boots = (if s.power.clocksStopped = true then s.uhleg.boots + 1 else s.uhleg.boots)) ∧
  (∀ (p : PortId) (s : State), s.awake = true → s.power.laneLock.getLsbD p = true → ∃ t,
    exec (.lanePllUnlock p) s = .next t ∧ t.power.laneLock.getLsbD p = false ∧
      (s.power.refclk = false → t.life = s.life) ∧
      (s.power.refclk = true → s.serving = true →
        t.life = { s.life with causes := s.life.causes ++ [⟨0x1702, p, [byte p, 0, 0, 0, 0, 0, 0, 0]⟩] }) ∧
      (s.power.refclk = true → s.life.state = .starting → t.life.state = .halted ∨ t.life.state = .peat) ∧
      (s.life.state ≠ .starting → ∀ i : PortId, i ≠ p → t.power.laneLock.getLsbD i = s.power.laneLock.getLsbD i) ∧
      t.mem = s.mem ∧ t.fuses = s.fuses)

/-- RESET_N (R98, R105, R116, R117, R681): a pulse below 1 µs does nothing; one of 1 µs or more takes STARTING, STANDBY, READY,
IN_SERVICE and HALTED to STANDBY with the main domain and the endpoint as a start finds them and SERVE_OK low, and leaves PEAT for
STANDBY when BOOT_SAFE is low and the start counter is at most 2; the conductances of the Reed arrays, the fuses, TIME and the
rails stay. A start begins
(R98, R102, R105): with the rails, the clocks, the firmware and BOOT_SAFE as R98 asks and a start counter below 3,
STANDBY goes to STARTING with stage 1 in progress and the counter one higher, stored. With BOOT_SAFE high, or the
counter at 3 or more, it goes to PEAT. -/
def Obligations.ResetAndStartAttempts : Prop :=
  ((∀ (ns : Nat) (b : Bool) (s : State), ns < 1000 → exec (.resetNAssert ns b) s = .next s) ∧
  (∀ (ns : Nat) (b : Bool) (s : State), 1000 ≤ ns →
    s.life.state = .starting ∨ s.life.state = .standby ∨ s.life.state = .ready ∨ s.life.state = .inService ∨
      s.life.state = .halted → ∃ t, exec (.resetNAssert ns b) s = .next t ∧
        t.life.state = .standby ∧ t.life.resetHigh = false ∧ t.life.stage = 0 ∧ t.life.causes = [] ∧
        t.life.drain = none ∧ t.life.serveOkLow = true ∧ t.life.haltAsserted = false ∧ t.life.heldInReset = false ∧
        t.front = .blank ∧ t.serve = .blank ∧ t.runtime = .blank ∧ t.tree = .blank ∧ t.cores = .blank ∧ t.pcie = .blank ∧
        t.ports = [] ∧ t.links = [] ∧ t.mailbox = .blank ∧ t.corePort = .blank ∧ t.cache = ⟨[], []⟩ ∧
        t.power.mainClocks = false ∧ t.led 0x2000 0x20 = 0 ∧ t.reed.cond = s.reed.cond ∧ t.reed.acc = [] ∧
        t.fuses = s.fuses ∧
        t.time = s.time ∧ t.jtag = s.jtag ∧ t.power.inWindow = s.power.inWindow) ∧
  ∀ (ns : Nat) (b : Bool) (s : State), 1000 ≤ ns → s.life.state = .peat → ∃ t, exec (.resetNAssert ns b) s = .next t ∧
    t.life.state = (if b = false ∧ s.led 0x1100 0x03 ≤ 2 then .standby else .peat) ∧ t.pcie.enabled = false) ∧
  (∀ (a : Attempt) (s : State), s.railsReady = true → s.life.resetHigh = false →
    (a.bootSafe = false → s.led 0x1100 0x03 < 3 → a.stages = [] → ∃ t, exec (.startAttempt a) s = .next t ∧
      t.life.state = .starting ∧ t.life.stage = 1 ∧ t.life.resetHigh = true ∧ t.life.bootSafe = false ∧
      t.life.micros = a.micros ∧ t.led 0x1100 0x03 = s.led 0x1100 0x03 + 1 ∧
      Safety.sameMemory s t ∧ Safety.sameUnits s t ∧ t.front = s.front ∧ t.fuses = s.fuses ∧ t.time = s.time) ∧
    (a.bootSafe = true ∨ 3 ≤ s.led 0x1100 0x03 → ∃ t, exec (.startAttempt a) s = .next t ∧ t.life.state = .peat ∧
      t.life.stage = 0 ∧ t.led 0x1100 0x07 = (if a.bootSafe = true then 2 else 1) ∧
      t.led 0x1100 0x03 = s.led 0x1100 0x03))

/-! ### The start sequence -/

/-- A stage of a start ends (R101, R105, R107, R108): one of stages 1 to 7 in which no codeword was found wrong and whose work
came out well gives the next stage, and the µs that passed are added to those of the attempt; one whose work failed ends the
attempt, recorded in 0x1100:04 with its reason, its stage and its detail, in HALTED, or in PEAT when the start counter reads 3
or more, the queues as a start finds them, the main clocks stopped and SERVE_OK low. Stage 1 fails where a main rail is out of
its window, stage 5 where a channel fails its training, and stages 2, 3, 4 and 7 as their work reports (R101, R158, R159).
The end of a start by time (R102, R105, R107): a stage from 1 to 9 that overruns its budget fails the attempt, with reason
0x0F and the stage as its detail, in stage 8 with reason 0x0B and detail 0 (R453); stage 10 that runs out of its budget still
reaches READY, with the start counter at 0 and the duration in 0x1100:16. -/
def Obligations.StagesAndTheirTime : Prop :=
  (∀ (a : Attempt) (w : StageWork) (s : State), s.attemptRuns = true → 1 ≤ s.life.stage → s.life.stage ≤ 7 →
    a.stages = [w] → w.errors = [] → ∃ t, exec (.startAttempt a) s = .next t ∧
      match s.stageFailure s.life.stage w with
      | none => t.life.state = .starting ∧ t.life.stage = s.life.stage + 1 ∧ t.life.micros = s.life.micros + a.micros ∧
          t.fuses = s.fuses ∧ t.time = s.time ∧ t.reed = s.reed
      | some d => t.life.state = (if 3 ≤ s.led 0x1100 0x03 then .peat else .halted) ∧ t.life.stage = 0 ∧
          t.led 0x1100 0x04 = failureRecord (stageReason s.life.stage) s.life.stage d ∧ t.front = .blank ∧
          t.power.mainClocks = false ∧ t.life.serveOkLow = true) ∧
  ((∀ s : State, s.attemptRuns = true → 1 ≤ s.life.stage → s.life.stage < 10 → ∃ t, exec .stageTimeout s = .next t ∧
    t.life.state = (if 3 ≤ s.led 0x1100 0x03 then .peat else .halted) ∧ t.life.stage = 0 ∧
    t.led 0x1100 0x04 = (if s.life.stage = 8 then failureRecord 0x0B 8 0
      else failureRecord 0x0F s.life.stage s.life.stage) ∧ t.led 0x1100 0x03 = s.led 0x1100 0x03) ∧
  ∀ s : State, s.attemptRuns = true → s.life.stage = 10 → ∃ t, exec .stage10BudgetExpiry s = .next t ∧
    t.life.state = .ready ∧ t.life.stage = 0 ∧ t.life.openAttempt = none ∧ t.led 0x1100 0x03 = 0 ∧
    t.led 0x1100 0x16 = (s.life.micros + 1000000) % 2 ^ 32 ∧
    Safety.sameMemory s t ∧ Safety.sameUnits s t ∧ t.front = s.front ∧ Safety.samePorts s t ∧ t.power = s.power)

/-! ### Sensors and halts -/

/-- A conversion in range (R85, R93, R641) becomes the sensor's sample, with the offset of 0x9000:11, and its peak where
it is higher; no other sensor changes, and neither do the fuses and TIME. A failed sensor converts no more (R93). A rail
monitor, VPRG_SENSE or a lock monitor that fails is noted, the temperature sensors stay as they were, and in READY and
IN_SERVICE it is a cause of a class D halt that names it and how it failed (R642, R677). -/
def Obligations.ConversionIsKept : Prop :=
  (∀ (n : Fin 28) (r : Int) (s : State), s.awake = true → (s.sensor n).failed = false → -320 ≤ r → r ≤ 2400 → ∃ t,
    exec (.sensorConversion n (some r) false) s = .next t ∧ (t.sensor n).sample = some (s.offsetSample n r) ∧
      (t.sensor n).missed = 0 ∧ (t.sensor n).failed = false ∧
      (t.sensor n).peak = some (match (s.sensor n).peak with | some p => max p (s.offsetSample n r) | none => s.offsetSample n r) ∧
      (∀ m, m ≠ n.val → t.sensor m = s.sensor m) ∧ t.fuses = s.fuses ∧ t.time = s.time) ∧
  (∀ (n : Fin 28) (raw : Option Int) (self : Bool) (s : State), (s.sensor n).failed = true →
    exec (.sensorConversion n raw self) s = .next s) ∧
  ∀ (n : Fin 49) (missed : Bool) (s : State), s.awake = true → isMonitor n missed = true →
    n.val ∉ s.sensors.monitorsFailed → ∃ t, exec (.monitorCheckFailed n missed) s = .next t ∧
      t.sensors.monitorsFailed = n.val :: s.sensors.monitorsFailed ∧ t.sensors.each = s.sensors.each ∧
      (s.serving = true → t.life = { s.life with causes := s.life.causes ++
        [⟨0x1602, n, [byte n, if missed = true then 2 else 3, 0, 0, 0, 0, 0, 0]⟩] })

/-- The orderly halt (R677, R679, R680) carries the primary reason of the causes found, an error in the state of the Oven or of a
cell sequencer among them (R678): HALTED, HALT_N asserted, SERVE_OK low, 0x1100:08 and 0x1100:09 written, queues and runtime
lost, the cores in reset, the main clocks stopped; where memory is left readable and neither the shared cache nor its
write-back meets an uncorrectable error, memory holds what it held. The serving registers, the cells, the conductances of the
Reed arrays, the fuses and TIME stay. An uncorrectable error of a core's cache is a cause of a class D halt in READY and
IN_SERVICE and ends a start (R677, R678, R735); the cause names the core and the cache. -/
def Obligations.OrderlyHaltAndCoreErrors : Prop :=
  (∀ (u : Option FrontEndUnit) (hw : Hw) (s : State) (c : HaltCause), s.serving = true →
    primaryCause (s.life.causes ++ (u.map fun n => (⟨0x1302, frontEndNumber n,
      [byte (frontEndNumber n), 0, 0, 0, 0, 0, 0, 0]⟩ : HaltCause)).toList) = some c → c.code < 2 ^ 16 → ∃ t,
    exec (.classDHalt u hw) s = .next t ∧ t.life.state = .halted ∧ t.life.haltAsserted = true ∧
      t.life.serveOkLow = true ∧ t.life.causes = [] ∧ t.life.drain = none ∧ t.led 0x1100 0x08 = c.code ∧
      t.led 0x1100 0x09 = (haltReadable c.code).toNat ∧ t.led 0x2000 0x20 = 0 ∧ t.front = .blank ∧
      t.runtime = .blank ∧ t.tree = .blank ∧ t.cores = .blank ∧ t.serve = s.serve ∧ t.power.mainClocks = false ∧
      (haltReadable c.code = true → (∀ l ∈ s.cache.lines, l.bad = false) → hw.sliceBad = [] → t.mem = s.mem) ∧
      t.cache = ⟨[], []⟩ ∧ t.reed.cond = s.reed.cond ∧ t.cells = s.cells ∧ t.fuses = s.fuses ∧ t.time = s.time) ∧
  (∀ (n : Fin 8) (cache : CoreCache) (s : State),
    (s.serving = true → ∃ t, exec (.coreUncorrectable n cache) s = .next t ∧
      t = { s with life := { s.life with causes := s.life.causes ++ [⟨0x1202, n,
        [byte n, match cache with | .l1i => 1 | .l1d => 2 | .l2 => 3, 0, 0, 0, 0, 0, 0]⟩] } }) ∧
    (s.life.state = .starting → ∃ t, exec (.coreUncorrectable n cache) s = .next t ∧
      t.led 0x1100 0x04 = failureRecord 0x09 s.life.stage (18 + n.val) ∧ t.life.stage = 0 ∧
      t.life.state = if 3 ≤ s.led 0x1100 0x03 then .peat else .halted))

/-! ### Uhleg -/

/-- Uhleg's restarts and boots (R593, R594, R638, R661): the watchdog and an SRAM error restart it, which ends a service
unlock and every CAN FD request; a boot ends the restart, samples the straps and is counted; the trial of a Uhleg image
that has run its time is passed. The log's way to NOR and the value store (R645, R649, R650, R668): the oldest record of
the front reaches its place in the ring at the first try or the repeat, and its number advances; when both fail, writing
stops. Compaction moves the store to its other half and changes no value. The times of a service unlock (R592, R593): at
its expiry the unlock and the factory test access end; the end of a lockout gives LOCKED again, or UNLOCKED for a holder
that still has it. -/
def Obligations.UhlegOnItsOwn : Prop :=
  ((∀ s : State, s.uhlegRuns = true →
    (∃ t, exec .uhlegWatchdogExpiry s = .next t ∧ t.uhleg.phase = .restarting 3 ∧ t.unlock.holder = 0 ∧
      t.can.downloads = [] ∧ t.life = s.life ∧ Safety.sameMemory s t ∧ Safety.sameUnits s t ∧ t.front = s.front) ∧
    ∃ t, exec .uhlegSramError s = .next t ∧ t.uhleg.phase = .restarting 4 ∧ t.unlock.holder = 0 ∧
      t.can.downloads = [] ∧ t.life = s.life ∧ Safety.sameMemory s t ∧ Safety.sameUnits s t ∧ t.front = s.front) ∧
  (∀ (boot : BootSample) (s : State) (k : Nat), s.awake = true → s.uhleg.phase = .restarting k → ∃ t,
    exec (.uhlegBoot boot) s = .next t ∧ (t.uhleg.phase = .firmware ∨ t.uhleg.phase = .recovery) ∧
      t.uhleg.boots = s.uhleg.boots + 1 ∧ t.uhleg.devId = boot.devId ∧ t.uhleg.trayId = boot.trayId ∧
      t.life.bootSafe = boot.bootSafe ∧ t.fuses = s.fuses ∧ t.time = s.time) ∧
  ∀ s : State, s.uhlegRuns = true → s.uhleg.trial = true → ∃ t, exec .uhlegTrialTimer s = .next t ∧
    t.uhleg.trial = false ∧ t.update.pendingUhleg = false ∧ t.led 0x8000 0x45 = 0 ∧
    t.fuses.rollback.toNat =
      (if s.bankAdvances (partBank 1 s.uhleg.bankB) then
        max s.fuses.rollback.toNat (s.bankSecurity (partBank 1 s.uhleg.bankB) % 2 ^ 32)
      else s.fuses.rollback.toNat) ∧
    t.life = s.life ∧ Safety.sameMemory s t ∧ Safety.sameUnits s t) ∧
  ((∀ (first again : Bool) (r : LogRec) (rest : List LogRec) (s : State), s.uhlegRuns = true → s.log.stopped = false →
    s.log.front = r :: rest → (first || again) = true → ∃ t, exec (.logNorWrite first again) s = .next t ∧
      t.log.ring.find? (logPlace (s.led 0x8000 0x10)) = some (logBytes (s.led 0x8000 0x10) r) ∧
      t.led 0x8000 0x10 = (s.led 0x8000 0x10 + 1) % 2 ^ 32 ∧ rest <+: t.log.front ∧ t.log.stopped = false ∧
      t.life = s.life ∧ Safety.sameMemory s t ∧ Safety.sameUnits s t) ∧
  (∀ s : State, s.uhlegRuns = true → s.log.stopped = false → s.log.front ≠ [] → ∃ t,
    exec (.logNorWrite false false) s = .next t ∧ t.log.stopped = true ∧ t.log.ring = s.log.ring) ∧
  ∀ s : State, s.uhlegRuns = true → ∃ t, exec .ledgerStoreCompaction s = .next t ∧
    t.ledger.half = !s.ledger.half ∧ t.ledger.sequence = s.ledger.sequence + 1 ∧ t.ledger.store = s.ledger.store ∧
    t.ledger.live = s.ledger.live ∧ t = { s with ledger := t.ledger }) ∧
  ((∀ s : State, s.uhlegRuns = true → s.unlock.holder ≠ 0 → ∃ t, exec .unlockExpiry s = .next t ∧ t.unlock.holder = 0 ∧
    t.unlock.state = (if s.unlock.state = 1 then 0 else s.unlock.state) ∧ t.led 0x9000 0x01 = 0 ∧
    t.unlock.challenge = s.unlock.challenge ∧ t.life = s.life ∧ Safety.sameMemory s t ∧ Safety.sameUnits s t) ∧
  ∀ s : State, s.awake = true → s.unlock.state = 2 → ∃ t, exec .lockoutExpiry s = .next t ∧
    t = { s with unlock := { s.unlock with state := if s.unlock.holder = 0 then 0 else 1 } })

/-! ### The Ledger -/

/-- A READ and a DESCRIBE (R567, R568, R571, R596): a request that passes the checks is answered on its path with the
bytes of the elements it names, or with the entry's description, and is counted; the rails, the life of the device, the sensors,
memory, the units, the queues, the serving side, the ports, TIME and every value below index 0x8000 stay. -/
def Obligations.ReadsAreAnswered : Prop :=
  ∀ (c : LedgerCall) (s : State) (r : Request) (en : Entry), Safety.asks s c r →
    (s.arrive c.path).commonAbort r = none → findEntry r.index r.sub = some en →
    (r.command = 1 → r.rangeOk en = true → ∃ t, exec (.ledgerRead c) s = .next t ∧
      Safety.answered s t c r ⟨0, 0, (s.arrive c.path).readElements c.monitors r en⟩ ∧ t.life = s.life ∧
      t.time = s.time ∧ Safety.ledgerOnly s t []) ∧
    (r.command = 3 → ∃ t, exec (.ledgerDescribe c) s = .next t ∧ Safety.answered s t c r ⟨0, 0, describe en⟩ ∧
      t.life = s.life ∧ t.time = s.time ∧ Safety.ledgerOnly s t [])

/-- The first check of R569 that a WRITE fails ends it: it is answered with that abort code and detail and counted, no value
below index 0x8000 changes, and neither do the life of the device, TIME and the rest that a request leaves alone. -/
def Obligations.RefusedWritesChangeNothing : Prop :=
  ∀ (c : LedgerCall) (s : State) (r : Request) (code detail : Nat), Safety.asks s c r → r.command = 2 →
    ((s.arrive c.path).commonAbort r = some (code, detail) ∨
      ∃ en, (s.arrive c.path).commonAbort r = none ∧ findEntry r.index r.sub = some en ∧
        (s.arrive c.path).writeAbort r en = some (code, detail)) → ∃ t,
    exec (.ledgerWrite c) s = .next t ∧ Safety.answered s t c r ⟨code, detail, []⟩ ∧
      t.life = s.life ∧ t.time = s.time ∧ Safety.ledgerOnly s t [] ∧ t.pcie.hostErrCount = s.pcie.hostErrCount

/-- A plain write (R571, R577), to an index none of whose entries does more when it is written: every element takes its value, the
request is answered without an abort code, and the rest of the device stays. The writes of settings that have a row of their own
(R128, R157, R174, R280, R352, R529) give the entry the value written and leave the device state as it is; a node capacity below
the nodes that would remain is refused instead, and a request that is no WRITE does nothing by the rows of the scrub period and of
the port enable. -/
def Obligations.WritesTake : Prop :=
  (∀ (c : LedgerCall) (s : State) (r : Request) (en : Entry), Safety.accepted s c r en →
    r.index ∉ [0x1100, 0x2100, 0x3400, 0x5000, 0x5400, 0x6000, 0x6800, 0x7000, 0x7800, 0x8000, 0x9000] → ∃ t,
    exec (.ledgerWrite c) s = .next t ∧
      (∀ i, i < r.elements en → t.led r.index r.sub (r.first + i) = r.value en i) ∧
      Safety.answered s t c r ⟨0, 0, []⟩ ∧ t.life = s.life ∧ t.time = s.time ∧ Safety.ledgerOnly s t [(r.index, r.sub)]) ∧
  (Safety.settingTakes .meshSettingsWrite 0x1100 [0x11, 0x12] (fun _ _ => True) ∧
    Safety.settingTakes .scrubPeriodWrite 0x3000 [0x40] (fun _ _ => True) ∧
    Safety.settingTakes .cachedWindowSizeWrite 0x3400 [0x01] (fun _ _ => True) ∧
    Safety.settingTakes .treeEnableWrite 0x5400 [0x01] (fun _ _ => True) ∧
    Safety.settingTakes .nodeCapacityWrite 0x5400 [0x02] (fun s v => s.evictUnused.tree.nodes.length ≤ v) ∧
    Safety.settingTakes .poolDescriptorWrite 0x5000 [0x10, 0x11, 0x12, 0x13, 0x14, 0x15, 0x16, 0x17] (fun _ _ => True) ∧
    Safety.settingTakes .portEnableWrite 0x7000 [0x02] (fun _ _ => True) ∧
    (∀ (c : LedgerCall) (s : State) (r : Request) (en : Entry), Safety.accepted s c r en → r.index = 0x5400 →
      r.sub = 0x02 → r.value en 0 < s.evictUnused.tree.nodes.length → ∃ t, exec (.nodeCapacityWrite c) s = .next t ∧
        t.led 0x5400 0x02 = s.led 0x5400 0x02 ∧ t.tree = s.tree ∧ Safety.answered s t c r ⟨0x0D, 0, []⟩) ∧
    ∀ (c : LedgerCall) (s : State) (r : Request), Safety.asks s c r → r.command ≠ 2 →
      exec (.scrubPeriodWrite c) s = .next s ∧ exec (.portEnableWrite c) s = .next s)

/-- ENTER_SERVICE and LEAVE_SERVICE (R100, R110, R111, R112, R122): in READY with the runtime's status 1, no halt cause
and the mesh as 0x1100:11 asks, the device enters IN_SERVICE, releases SERVE_OK and sets 0x1100:13 to 0; otherwise the answer is
REFUSED with the reason, which 0x1100:13 holds, and the device stays as it is. Leaving, in IN_SERVICE with no halt cause, drives
SERVE_OK low and begins the drain; elsewhere it is REFUSED with the state's code. DRAIN_COMPLETE (R112): in IN_SERVICE with a
drain begun, no step in progress and no halt cause, the device is READY; with a step in progress, no drain, or in another
state, nothing happens. -/
def Obligations.ServiceAndItsDrain : Prop :=
  (∀ (c : LedgerCall) (s : State) (r : Request) (en : Entry), Safety.accepted s c r en →
    (r.writesValue 0x1100 0x10 1 = true → s.enterRefusal = 0 → ∃ t, exec (.enterService c) s = .next t ∧
      t.life = { s.life with state := .inService, serveOkLow := false, drain := none } ∧ t.led 0x1100 0x13 = 0 ∧
      Safety.answered s t c r ⟨0, 0, []⟩ ∧ t.time = s.time ∧ Safety.ledgerOnly s t [(0x1100, 0x13)]) ∧
    (r.writesValue 0x1100 0x10 1 = true → s.enterRefusal ≠ 0 → ∃ t, exec (.enterService c) s = .next t ∧
      t.life = s.life ∧ t.led 0x1100 0x13 = s.enterRefusal ∧ Safety.answered s t c r ⟨0x0D, s.enterRefusal, []⟩ ∧
      t.time = s.time ∧ Safety.ledgerOnly s t [(0x1100, 0x13)]) ∧
    (r.writesValue 0x1100 0x10 2 = true → s.life.state = .inService → s.life.causes = [] → ∃ t,
      exec (.leaveService c) s = .next t ∧
      t.life = { s.life with serveOkLow := true, drain := some (s.life.drain.getD .leaveService) } ∧
      Safety.answered s t c r ⟨0, 0, []⟩ ∧ t.time = s.time ∧ Safety.ledgerOnly s t []) ∧
    (r.writesValue 0x1100 0x10 2 = true → s.life.state ≠ .inService ∨ s.life.causes ≠ [] → ∃ t,
      exec (.leaveService c) s = .next t ∧ t.life = s.life ∧ Safety.answered s t c r ⟨0x0D, s.life.state.code, []⟩ ∧
      t.time = s.time ∧ Safety.ledgerOnly s t [])) ∧
  ((∀ s : State, s.life.state = .inService → s.life.drain.isSome = true → s.runtime.steps = [] → s.life.causes = [] → ∃ t,
    exec .drainComplete s = .next t ∧ t.life = { s.life with state := .ready, drain := none } ∧ t.power = s.power ∧
      Safety.sameMemory s t ∧ Safety.sameUnits s t ∧ t.front = s.front ∧ Safety.sameServing s t ∧ Safety.samePorts s t) ∧
  ∀ s : State, s.runtime.steps ≠ [] ∨ s.life.drain = none ∨ s.life.state ≠ .inService → exec .drainComplete s = .next s)

/-- HALT (R110, R678, R679, R680): in READY and IN_SERVICE it is answered and then carried through with COMMANDED among
the causes: HALTED, HALT_N asserted, SERVE_OK low, queues and runtime lost, the main clocks stopped, the primary reason written;
the conductances of the Reed arrays and the cells stay. Elsewhere it is refused with the state's code, and the device stays as
it is. -/
def Obligations.HaltCommand : Prop :=
  ∀ (c : LedgerCall) (s : State) (r : Request) (en : Entry), Safety.accepted s c r en →
    r.writesValue 0x1100 0x10 3 = true →
    (s.serving = true → ∀ p, primaryCause (s.life.causes ++ [⟨0x1F01, 0, [byte r.path, 0, 0, 0, 0, 0, 0, 0]⟩]) = some p → ∃ t,
      exec (.halt c) s = .next t ∧ t.life.state = .halted ∧ t.life.haltAsserted = true ∧ t.life.serveOkLow = true ∧
      t.life.causes = [] ∧ t.led 0x1100 0x08 = p.code ∧ t.led 0x1100 0x09 = (haltReadable p.code).toNat ∧
      t.front = .blank ∧ t.runtime = .blank ∧ t.tree = .blank ∧ t.power.mainClocks = false ∧
      t.reed.cond = s.reed.cond ∧ t.cells = s.cells ∧ Safety.answered s t c r ⟨0, 0, []⟩) ∧
    (s.serving = false → ∃ t, exec (.halt c) s = .next t ∧ t.life = s.life ∧ t.time = s.time ∧
      Safety.answered s t c r ⟨0x0D, s.life.state.code, []⟩ ∧ Safety.ledgerOnly s t [])

/-- The commands that clear history (R109, R628, R629): the start counter in STANDBY, HALTED and PEAT, elsewhere
refused; the error records; the start-failure records. No other value below index 0x8000 changes with them, and the rest of the
device stays as it is. SET_TIME and RESTART_MANAGEMENT_CORE (R594, R624, R626): TIME takes the value written; writing 1 to
0x8000:06 is answered and then restarts Uhleg with cause 2, which ends a service unlock and every CAN FD request and leaves
the rest as it is. -/
def Obligations.HistoryTimeAndRestartCommands : Prop :=
  (∀ (c : LedgerCall) (s : State) (r : Request) (en : Entry), Safety.accepted s c r en →
    (r.writesValue 0x1100 0x06 1 = true →
      (s.life.state = .standby ∨ s.life.state = .halted ∨ s.life.state = .peat → ∃ t,
        exec (.clearStartCounter c) s = .next t ∧ t.led 0x1100 0x03 = 0 ∧ Safety.answered s t c r ⟨0, 0, []⟩ ∧
          t.life = s.life ∧ t.time = s.time ∧ Safety.ledgerOnly s t [(0x1100, 0x03)]) ∧
      (¬(s.life.state = .standby ∨ s.life.state = .halted ∨ s.life.state = .peat) → ∃ t,
        exec (.clearStartCounter c) s = .next t ∧ Safety.answered s t c r ⟨0x0D, 0, []⟩ ∧ t.life = s.life ∧
          t.time = s.time ∧ Safety.ledgerOnly s t [])) ∧
    (r.writesValue 0x9000 0x02 1 = true → ∃ t, exec (.clearErrorHistory c) s = .next t ∧ t.led 0x3000 0x12 = 0 ∧
      t.led 0x3000 0x13 = 0 ∧ t.led 0x3000 0x15 = 0 ∧ (∀ n : CellId, t.led (0x4000 + n.val) 0x32 = 0) ∧
      Safety.answered s t c r ⟨0, 0, []⟩ ∧ t.life = s.life ∧ t.time = s.time ∧
      Safety.ledgerOnly s t ([(0x3000, 0x12), (0x3000, 0x13), (0x3000, 0x15)] ++
        (List.finRange 16).map fun n => (0x4000 + n.val, 0x32))) ∧
    (r.writesValue 0x9000 0x03 1 = true → ∃ t, exec (.clearStartHistory c) s = .next t ∧ t.led 0x1100 0x04 = 0 ∧
      (∀ e : Fin 3, t.led 0x1100 0x05 e = 0) ∧ Safety.answered s t c r ⟨0, 0, []⟩ ∧ t.life = s.life ∧ t.time = s.time ∧
      Safety.ledgerOnly s t [(0x1100, 0x04), (0x1100, 0x05)])) ∧
  (∀ (c : LedgerCall) (s : State) (r : Request) (en : Entry), Safety.accepted s c r en →
    (r.writes 0x8000 [0x51] = true → ∃ t, exec (.setTime c) s = .next t ∧ t.time = BitVec.ofNat 64 (r.value en 0) ∧
      Safety.answered s t c r ⟨0, 0, []⟩ ∧ t.life = s.life ∧ Safety.ledgerOnly s t []) ∧
    (r.writesValue 0x8000 0x06 1 = true → ∃ t, exec (.restartManagementCore c) s = .next t ∧
      t.uhleg.phase = .restarting 2 ∧ t.unlock.holder = 0 ∧ t.can.downloads = [] ∧ t.life = s.life ∧ t.time = s.time ∧
      Safety.ledgerOnly s t [] ∧ Safety.answered s t c r ⟨0, 0, []⟩))

/-- Service unlock (R591 to R593): a response that fulfils R592 gives the unlock to its path for the minutes it names;
any other is refused and counted in 0x8000:36, the unlock stays with its holder, and the third in a row locks out; RELOCK ends the
unlock. A response draws a new challenge (log entry 7: its bytes are free). -/
def Obligations.ServiceUnlock : Prop :=
  ∀ (c : LedgerCall) (s : State) (r : Request) (en : Entry), Safety.accepted s c r en →
    (r.writes 0x8000 [0x31] = true → s.unlockOk r.data = true → ∃ t, exec (.unlockResponse c) s = .next t ∧
      t.unlock = ⟨1, BitVec.ofNat 8 r.path, imageNat r.data 96 4, s.power.uclk,
        (countFrom s.fresh 32).map Config.freeByte, 0⟩ ∧ t.fresh = s.fresh + 32 ∧
      Safety.answered s t c r ⟨0, 0, []⟩ ∧ t.life = s.life ∧ t.time = s.time ∧ Safety.ledgerOnly s t []) ∧
    (r.writes 0x8000 [0x31] = true → s.unlockOk r.data = false → ∃ t, exec (.unlockResponse c) s = .next t ∧
      t.unlock.holder = s.unlock.holder ∧ t.unlock.minutes = s.unlock.minutes ∧
      t.unlock.state = (if s.unlock.state ≠ 2 ∧ 2 ≤ s.unlock.refusals then 2 else s.unlock.state) ∧
      t.unlock.refusals = (if s.unlock.state = 2 then s.unlock.refusals
        else if 2 ≤ s.unlock.refusals then 0 else s.unlock.refusals + 1) ∧
      t.led 0x8000 0x36 = pastTop (8 * entryWidth 0x8000 0x36) (s.led 0x8000 0x36 + 1) ∧
      t.unlock.challenge = (countFrom s.fresh 32).map Config.freeByte ∧ Safety.answered s t c r ⟨0x0D, 0, []⟩ ∧
      t.life = s.life ∧ t.time = s.time ∧ Safety.ledgerOnly s t []) ∧
    (r.writesValue 0x8000 0x35 1 = true → ∃ t, exec (.relock c) s = .next t ∧ t.unlock.holder = 0 ∧
      t.unlock.state = (if s.unlock.holder ≠ 0 ∧ s.unlock.state = 1 then 0 else s.unlock.state) ∧
      t.unlock.challenge = s.unlock.challenge ∧ Safety.answered s t c r ⟨0, 0, []⟩ ∧ t.life = s.life ∧ t.time = s.time ∧
      Safety.ledgerOnly s t [])

/-- The update flow, steps 1 to 5 (R627, R654, R655): BEGIN, blocks of data, VERIFY, ACTIVATE and ABORT in the statuses
of R654, with the status, the progress, the target bank and the bank's bytes they leave; a Uhleg image whose trial the
answer passes leaves IDLE (R661); a VERIFY in another status is refused. Verification ends (R652, R655): VERIFIED, and the bank
marked, where every check passes and the bank reads as it was written; else FAILED with the first failure code, FLASH last, and
no fuse changes with it. No other bank changes, and the rest of the device stays as it is. -/
def Obligations.UpdateFlow : Prop :=
  (∀ (c : LedgerCall) (s : State) (r : Request) (en : Entry), Safety.accepted s c r en →
    (r.writesValue 0x8000 0x44 1 = true → s.updateOpen = true → between 1 (s.led 0x8000 0x40) 2 = true →
      between 1 (s.led 0x8000 0x41) (256 + payloadLimit (s.led 0x8000 0x40)) = true → ∃ t, exec (.begin c) s = .next t ∧
        t.led 0x8000 0x45 = (if s.uhleg.trial = true then 0 else 1) ∧ t.led 0x8000 0x43 = 0 ∧
        t.update.targetBank = some (partBank (s.led 0x8000 0x40) (!s.runningBank (s.led 0x8000 0x40))) ∧
        (∀ b, t.update.bank b = s.update.bank b) ∧ Safety.answered s t c r ⟨0, 0, []⟩ ∧ t.life = s.life ∧
        Safety.ledgerOnly s t []) ∧
    (∀ b, r.writes 0x8000 [0x42] = true → s.led 0x8000 0x45 = 1 → s.update.targetBank = some b →
      s.led 0x8000 0x43 < s.led 0x8000 0x41 → ∃ t, exec (.updateData c) s = .next t ∧
        t.led 0x8000 0x43 = s.led 0x8000 0x43 + min 1024 (s.led 0x8000 0x41 - s.led 0x8000 0x43) ∧
        t.update.bank b = .bytes (programBank (s.update.image b) (s.led 0x8000 0x43)
          (r.data.take (min 1024 (s.led 0x8000 0x41 - s.led 0x8000 0x43)))) ∧
        (∀ b', b' ≠ b → t.update.bank b' = s.update.bank b') ∧
        Safety.answered s t c r ⟨0, 0, []⟩ ∧ t.life = s.life ∧ Safety.ledgerOnly s t []) ∧
    (r.writesValue 0x8000 0x44 2 = true → s.led 0x8000 0x45 = 1 → s.led 0x8000 0x43 = s.led 0x8000 0x41 → ∃ t,
      exec (.verify c) s = .next t ∧ t.led 0x8000 0x45 = (if s.uhleg.trial = true then 0 else 2) ∧
        (∀ b, t.update.bank b = s.update.bank b) ∧ Safety.answered s t c r ⟨0, 0, []⟩ ∧ t.life = s.life ∧
        Safety.ledgerOnly s t []) ∧
    (∀ b, r.writesValue 0x8000 0x44 3 = true → s.led 0x8000 0x45 = 3 → s.update.targetBank = some b → ∃ t,
      exec (.activate c) s = .next t ∧ t.led 0x8000 0x45 = (if s.uhleg.trial = true then 0 else 4) ∧
        bit (t.led 0x8000 0x03) (bankPart b - 1) = isBankB b ∧ (∀ b', t.update.bank b' = s.update.bank b') ∧
        Safety.answered s t c r ⟨0, 0, []⟩ ∧ t.life = s.life ∧ Safety.ledgerOnly s t []) ∧
    (r.writesValue 0x8000 0x44 4 = true → ∃ t, exec (.abort c) s = .next t ∧ t.led 0x8000 0x45 = 0 ∧
      (∀ b, t.update.bank b = s.update.bank b) ∧ Safety.answered s t c r ⟨0, 0, []⟩ ∧ t.life = s.life ∧
      Safety.ledgerOnly s t []) ∧
    (r.writesValue 0x8000 0x44 2 = true → s.led 0x8000 0x45 ≠ 1 → ∃ t, exec (.verify c) s = .next t ∧
      Safety.answered s t c r ⟨0x0D, 0, []⟩ ∧ (∀ b, t.update.bank b = s.update.bank b) ∧ t.life = s.life ∧
      Safety.ledgerOnly s t [])) ∧
  (∀ (readBack : List (Nat × Byte)) (b : ImageBank) (s : State), s.uhlegRuns = true → s.led 0x8000 0x45 = 2 →
    s.update.targetBank = some b → ∃ t, exec (.updateVerified readBack) s = .next t ∧
      (let read := applyReadBack (s.update.image b) readBack
        let s' := { s with update := s.update.setBank (.bytes read) b }
        let code := s'.checkBank b false (some (s.led 0x8000 0x41, s.led 0x8000 0x40))
        let failure := if code = 0 ∧ read ≠ (s.update.image b) then 8 else code
        (failure = 0 → t.led 0x8000 0x45 = 3 ∧ b ∈ t.update.verified) ∧
          (failure ≠ 0 → t.led 0x8000 0x45 = 5 ∧ t.led 0x8000 0x46 = failure) ∧ t.update.bank b = .bytes read) ∧
      (∀ b', b' ≠ b → t.update.bank b' = s.update.bank b') ∧ t.fuses = s.fuses ∧ t.life = s.life ∧
      Safety.sameMemory s t ∧ Safety.sameUnits s t ∧ t.front = s.front)

/-- FLUSH_TREE (R352): every node of the Starter tree whose count is 0 leaves the tree, but for one beneath which a node is
referenced (log entry 149), nothing of the device's life, queues, cells or arrays changes, and the request is answered. -/
def Obligations.FlushTreeEvictsUnused : Prop :=
  ∀ (c : LedgerCall) (s : State) (r : Request) (en : Entry), Safety.accepted s c r en →
    r.writesValue 0x5400 0x40 1 = true → ∃ t, exec (.flushTree c) s = .next t ∧
      (∀ n ∈ t.treeNodes, n.2.root = true ∨ n.2.refs ≠ 0 ∨ t.unused n.1 = false) ∧ t.tree.assembly = s.tree.assembly ∧
      Safety.answered s t c r ⟨0, 0, []⟩ ∧ t.life = s.life ∧ t.front = s.front ∧ Safety.sameUnits s t ∧
      t.runtime.sequences = s.runtime.sequences

/-- CAN FD downloads (R579, R582, R584, R585, R596): the segment expected, in its length, is taken; any other ends the
transfer, which is answered TRANSFER with the number expected; so does 100 ms without one. An error frame is counted; bus-off
is counted too and holds until the controller has recovered. -/
def Obligations.CanTransfers : Prop :=
  (∀ (ident : BitVec 29) (data : List Byte) (d : Download) (s : State), s.uhlegRuns = true → s.can.busOff = false →
    s.ownFrame 0x09 ident = true →
    (s.can.downloads.find? fun d => bits d.ident.toNat 0 8 == bits ident.toNat 0 8) = some d →
    d.data.length < d.asRequest.length → ∃ t, exec (.segmentDown ident data) s = .next t ∧
      (imageNat data 0 2 = d.next → data.length = canLength (4 + d.due) →
        t.can.downloads = s.can.downloads.map fun x => if x.requester = d.requester then
          { d with data := d.data ++ (data.drop 4).take d.due, next := d.next + 1 } else x) ∧
      (imageNat data 0 2 ≠ d.next ∨ data.length ≠ canLength (4 + d.due) →
        t.can.downloads = (s.can.downloads.filter fun x => x.requester != d.requester) ∧
          Safety.sentAnswer s t d.ident d.asRequest ⟨0x02, d.next, []⟩) ∧
      t.life = s.life ∧ Safety.sameMemory s t ∧ Safety.sameUnits s t ∧ t.front = s.front) ∧
  (∀ (n : Fin 8) (d : Download) (s : State), s.uhlegRuns = true → s.can.busOff = false →
    (s.can.downloads.find? fun d => d.requester == n.val) = some d → d.data.length < d.asRequest.length → ∃ t,
      exec (.segmentTimeout n) s = .next t ∧
        t.can.downloads = (s.can.downloads.filter fun x => x.requester != d.requester) ∧
        Safety.sentAnswer s t d.ident d.asRequest ⟨0x02, d.next, []⟩ ∧
        t.life = s.life ∧ Safety.sameMemory s t ∧ Safety.sameUnits s t ∧ t.front = s.front) ∧
  ∀ s : State, s.awake = true →
    (s.can.busOff = false → ∃ t, exec (.canErrorFrame .errorFrame) s = .next t ∧
      t.led 0x8000 0x23 = pastTop (8 * entryWidth 0x8000 0x23) (s.led 0x8000 0x23 + 1) ∧ t.can = s.can ∧ t.life = s.life) ∧
    (s.can.busOff = false → ∃ t, exec (.canErrorFrame .busOff) s = .next t ∧ t.can.busOff = true ∧
      t.led 0x8000 0x23 = pastTop (8 * entryWidth 0x8000 0x23) (s.led 0x8000 0x23 + 1) ∧ t.led 0x8000 0x24 = pastTop (8 * entryWidth 0x8000 0x24) (s.led 0x8000 0x24 + 1) ∧
      t.life = s.life) ∧
    ∃ t, exec (.canErrorFrame .recovered) s = .next t ∧ t = { s with can := { s.can with busOff := false } }

/-! ### Memory and atomics -/

/-- The requests of the channels (R132, R134, R142 to R149): one for populated memory that no slice serves enters its channel's
queue in its class while that holds fewer than 16 and none waits outside; a write's enabled bytes, and no others, are then what
memory holds. A read of a line that a slice holds is answered by it. Two requests of one cycle enter in the order of R148. The
channel issues its choice, which leaves the queue and opens its row; a read gives its source the bytes that memory held when it
reached the channel. -/
def Obligations.ChannelsServeRequests : Prop :=
  (∀ (r : MemReq) (hw : Hw) (s : State), s.memoryRuns = true → s.power.mainClocks = true → Safety.clean hw →
    populated r.addr 128 = true → s.cacheable r.addr = false → r.source ≠ .scrub →
    (s.channel (channelOf r.addr)).queue.length < 16 → (s.channel (channelOf r.addr)).outside = [] → ∃ t,
      exec (.memRequest (.enter [r] hw)) s = .next t ∧
      (t.channel (channelOf r.addr)).queue = (s.channel (channelOf r.addr)).queue ++
        [⟨{ r with cls := classOf r }, false, t.memRead r.addr 128, true⟩] ∧
      (∀ n, n ≠ channelOf r.addr → t.channel n = s.channel n) ∧
      (t.mem = match r.write with
        | some w => Sparse.writeMasked 0 s.mem r.addr w
        | none => s.mem) ∧
      t.cache = s.cache ∧ t.life = s.life ∧ Safety.sameUnits s t ∧ t.front = s.front ∧ t.out = s.out) ∧
  (∀ (r : MemReq) (hw : Hw) (l : Line) (s : State), s.memoryRuns = true → s.power.mainClocks = true → Safety.clean hw →
    Safety.sound s → populated r.addr 128 = true → s.cacheable r.addr = true → s.lineAt (r.addr / 128) = some l →
    r.write = none → ∃ t, exec (.memRequest (.enter [r] hw)) s = .next t ∧
      t.out = .memData r.source r.addr (s.memRead r.addr 128) :: s.out ∧ t.mem = s.mem ∧ t.memctl = s.memctl ∧
      t.life = s.life ∧ Safety.sameUnits s t ∧ t.front = s.front) ∧
  (∀ (a b : MemReq) (hw : Hw) (s : State), requestBefore a b = true → requestBefore b a = false →
    exec (.memRequest (.enter [b, a] hw)) s = exec (.memRequest (.enter [a, b] hw)) s) ∧
  (∀ (n : Fin 512) (wait i b : Nat) (hw : Hw) (x : Queued) (s : State), s.memoryRuns = true → Safety.clean hw →
    (s.channel n).choose = some (i, b) → (s.channel n).queue[(s.channel n).first i]? = some x →
    (s.channel n).outside = [] → ∃ t, exec (.memRequest (.issue n wait hw [])) s = .next t ∧
      (t.channel n).queue = (s.channel n).queue.eraseIdx ((s.channel n).first i) ∧
      (t.channel n).rows.get none (bankOf x.req.addr) = some (rowOf x.req.addr) ∧
      (x.req.write = none → x.deliver = true → x.req.addr / 128 ∉ s.memctl.lost →
        t.out = .memData x.req.source x.req.addr x.data :: s.out) ∧
      t.mem = s.mem ∧ t.cache = s.cache ∧ t.life = s.life ∧ Safety.sameUnits s t ∧ t.front = s.front) ∧
  ∀ (n : Fin 512) (wait : Nat) (hw : Hw) (s : State), (s.channel n).choose = none →
    exec (.memRequest (.issue n wait hw [])) s = .next s

/-- Promotion, refresh and parity retry of a channel, and the patrol scrub (R137, R139, R145, R151, R152, R157): the
oldest request not promoted is promoted and counted; a refresh slot moves to the next bank and takes the interval that
holds; an alert is counted up to the fourth attempt, and beyond it is, in READY and IN_SERVICE, a cause of a class D halt that
names the channel; the scrub, which runs in READY and IN_SERVICE (log entry 142), goes to the next granule and counts whole
passes. -/
def Obligations.ChannelUpkeep : Prop :=
  (∀ (n : Fin 512) (i : Nat) (x : Queued) (s : State), s.memoryRuns = true →
    (s.channel n).queue.findIdx? (fun x => !x.promoted) = some i → (s.channel n).queue[i]? = some x → ∃ t,
      exec (.starvationPromotion n) s = .next t ∧
      (t.channel n).queue = setAt (s.channel n).queue i { x with promoted := true } ∧
      (∀ m, m ≠ n.val → t.channel m = s.channel m) ∧
      t.led 0x3000 0x30 (n.val / 32) = pastTop (8 * entryWidth 0x3000 0x30) (s.led 0x3000 0x30 (n.val / 32) + 1) ∧
      t.life = s.life ∧ t.mem = s.mem ∧ Safety.sameUnits s t ∧ t.front = s.front) ∧
  (∀ (n : Fin 512) (s : State), s.memoryRuns = true → ∃ t, exec (.refreshSlot n) s = .next t ∧
    (t.channel n).nextBank = ((s.channel n).nextBank + 1) % 16 ∧ (t.channel n).hot = s.sensors.hot ∧
    (t.channel n).queue = (s.channel n).queue ∧
    (∀ b, b ≠ (s.channel n).nextBank → (t.channel n).rows.get none b = (s.channel n).rows.get none b) ∧
    t = { s with memctl := { s.memctl with channels := t.memctl.channels } }) ∧
  (∀ (n : Fin 512) (replayed w : Bool) (s : State), s.memoryRuns = true →
    ((if replayed then (s.channel n).attempts else 0) < 4 → ∃ t, exec (.parityRetry n replayed w) s = .next t ∧
      (t.channel n).attempts = (if replayed then (s.channel n).attempts else 0) + 1 ∧
      t.led 0x3000 0x14 (n.val / 32) = pastTop (8 * entryWidth 0x3000 0x14) (s.led 0x3000 0x14 (n.val / 32) + 1) ∧
      t.life = s.life ∧ t.mem = s.mem) ∧
    (4 ≤ (if replayed then (s.channel n).attempts else 0) → s.serving = true → ∃ t,
      exec (.parityRetry n replayed w) s = .next t ∧ t.led 0x3000 0x15 = n.val + w.toNat * 2 ^ 9 ∧
      t.life = { s.life with causes := s.life.causes ++
        [⟨0x1102, n, toBytes 4 (n.val + w.toNat * 2 ^ 9) ++ [0, 0, 0, 0]⟩] } ∧ t.mem = s.mem)) ∧
  ∀ s : State, s.serving = true → ∃ t, exec (.scrubRead []) s = .next t ∧
    t.memctl.scrub = (if s.memctl.scrub + 1 = 16 * granulesPerChimney then 0 else s.memctl.scrub + 1) ∧
    (s.memctl.scrub + 1 = 16 * granulesPerChimney →
      t.led 0x3000 0x32 = pastTop (8 * entryWidth 0x3000 0x32) (s.led 0x3000 0x32 + 1)) ∧
    t.mem = s.mem ∧ t.cache = s.cache ∧ t.life = s.life ∧ Safety.sameUnits s t ∧ t.front = s.front

/-- The atomic operations 0x01 to 0x0D (R178, R179, R182): each gives the memory operand its new value, the cell buffer the old one
where FETCH asks for it, and changes no other byte of either; on memory of another device none of this device's memory changes.
-/
def Obligations.AtomicsUpdateOneOperand : Prop :=
  Safety.atomicLaw .addI32 0x01 (fun old v _ => (old + v) % 2 ^ 32) ∧
    Safety.atomicLaw .addI64 0x02 (fun old v _ => (old + v) % 2 ^ 64) ∧
    Safety.atomicLaw .addF32 0x03 (fun old v _ => (f32Add (BitVec.ofNat 32 old) (BitVec.ofNat 32 v)).1.toNat) ∧
    Safety.atomicLaw .minI32 0x04 (fun old v _ => if signedOf 32 v < signedOf 32 old then v else old) ∧
    Safety.atomicLaw .minI64 0x05 (fun old v _ => if signedOf 64 v < signedOf 64 old then v else old) ∧
    Safety.atomicLaw .minF32 0x06 (fun old v _ => (f32Min (BitVec.ofNat 32 old) (BitVec.ofNat 32 v)).1.toNat) ∧
    Safety.atomicLaw .maxI32 0x07 (fun old v _ => if signedOf 32 old < signedOf 32 v then v else old) ∧
    Safety.atomicLaw .maxI64 0x08 (fun old v _ => if signedOf 64 old < signedOf 64 v then v else old) ∧
    Safety.atomicLaw .maxF32 0x09 (fun old v _ => (f32Max (BitVec.ofNat 32 old) (BitVec.ofNat 32 v)).1.toNat) ∧
    Safety.atomicLaw .swap32 0x0A (fun _ v _ => v) ∧ Safety.atomicLaw .swap64 0x0B (fun _ v _ => v) ∧
    Safety.atomicLaw .cas32 0x0C (fun old v k => if old = k then v else old) ∧
    Safety.atomicLaw .cas64 0x0D (fun old v k => if old = k then v else old)

/-- The lse-merge (R184 to R189): LSE_INIT writes a record that awaits partial 0; LSE_MERGE of the partial that is next
folds it, and of a later one parks it in its spill slot; bytes of memory outside the record and the spill slot stay. -/
def Obligations.LseMergeFoldsInOrder : Prop :=
  (∀ (x : Issue) (o : AtomicOps) (s : State) (r : List Byte) (hw : Hw) (a : Nat),
    Safety.offers s x 0x11 (fun r => spellsAtomic o 0x10 r = true) r hw → s.lseInitCheck x o = none →
    s.cacheableAt o.addr.toNat lseBytes = some a → s.intact (granulesOf a lseBytes) = true → ∃ t,
      exec (.lseInit x o) s = .next t ∧
      (∀ y, y = readLse (t.memRead a lseBytes) →
        y.m = negInf ∧ y.s = 0 ∧ y.n = o.n.toNat ∧ y.p = o.count.toNat ∧ y.next = 0 ∧ y.done = false ∧ y.err = false ∧
          y.final = AtomicOps.final o ∧ y.spill = o.value.toNat ∧ y.counter = o.event.toNat ∧ y.arrived = 0) ∧
      (∀ b, b < a ∨ a + lseBytes ≤ b → t.memRead b 1 = s.memRead b 1) ∧ Safety.sameUnits s t ∧
      Safety.flying s t x 0x11 ∧ Safety.actsInFront s t x) ∧
  ∀ (x : Issue) (o : AtomicOps) (s : State) (r : List Byte) (hw : Hw) (a b : Nat) (y : LseRec) (p : Partial),
    Safety.offers s x 0x11 (fun r => spellsAtomic o 0x11 r = true) r hw → s.lseMergeCheck x o = none →
    s.cacheableAt o.addr.toNat lseBytes = some a → s.intact (granulesOf a lseBytes) = true →
    y = readLse (s.memRead a lseBytes) →
    p = readPartial (s.bufRead (theCell x.header.mask) o.result.toNat (128 + 4 * o.n.toNat)) o.n.toNat →
    y.done = false → y.err = false → y.n = o.n.toNat → o.ordinal.toNat < y.p → y.p ≤ 1024 →
    y.arrived.testBit o.ordinal.toNat = false →
    s.cacheableAt (y.slot o.ordinal.toNat) 1152 = some b → s.intact (granulesOf b 1152) = true →
    (a + lseBytes ≤ b ∨ b + 1152 ≤ a) →
    (y.next < o.ordinal.toNat → ∃ t, exec (.lseMerge x o) s = .next t ∧
      t.memRead b 8 = toBytes 4 p.m.toNat ++ toBytes 4 p.s.toNat ∧
      (∀ j, j < o.n.toNat → t.memNat (b + 128 + 4 * j) 4 = (p.o.getD j 0).toNat) ∧
      (readLse (t.memRead a lseBytes)).arrived.testBit o.ordinal.toNat = true ∧
      (readLse (t.memRead a lseBytes)).next = y.next ∧
      (∀ k, (k < a ∨ a + lseBytes ≤ k) → (k < b ∨ b + 1152 ≤ k) → t.memRead k 1 = s.memRead k 1) ∧
      Safety.sameUnits s t ∧ Safety.actsInFront s t x) ∧
    (y.next = o.ordinal.toNat → o.ordinal.toNat + 1 < y.p → y.arrived.testBit (o.ordinal.toNat + 1) = false → ∃ t,
      exec (.lseMerge x o) s = .next t ∧
      (readLse (t.memRead a lseBytes)).m = (y.fold p).1.m ∧ (readLse (t.memRead a lseBytes)).s = (y.fold p).1.s ∧
      (readLse (t.memRead a lseBytes)).o = (y.fold p).1.o ∧ (readLse (t.memRead a lseBytes)).next = y.next + 1 ∧
      (readLse (t.memRead a lseBytes)).done = false ∧
      (∀ k, (k < a ∨ a + lseBytes ≤ k) → t.memRead k 1 = s.memRead k 1) ∧
      Safety.sameUnits s t ∧ Safety.actsInFront s t x)

/-- An AMO of a core (R178, R180, R181): on an aligned cacheable address it writes the operation's value, gives the core
the old one and, where no line of the cache is bad, changes no other byte; LR reserves its line and SC stores only while the reservation holds; any other
address is an access fault of the core, and is counted. After a write no core holds a copy of the line (R175). -/
def Obligations.CoreAtomics : Prop :=
  (∀ (n : Fin 8) (op : CoreOp) (double : Bool) (addr value : DWord) (hw : Hw) (s : State), s.frontRuns = true →
    Safety.clean hw → addr.toNat % (if double then 8 else 4) = 0 →
    s.allCacheable addr.toNat (if double then 8 else 4) = true → addr.toNat / 128 ∉ s.memctl.lost →
    let w := if double then 64 else 32
    let line := addr.toNat / 128 * 128
    let old := s.memNat addr.toNat (w / 8)
    (op ≠ .sc ∨ s.cache.reserved.get none n = some line → ∃ t, exec (.coreAmo n op double addr value hw) s = .next t ∧
      t.memNat addr.toNat (w / 8) = coreNew op w old (value.toNat % 2 ^ w) ∧
      ((∀ l ∈ s.cache.lines, l.bad = false) →
        ∀ b, b < addr.toNat ∨ addr.toNat + w / 8 ≤ b → t.memRead b 1 = s.memRead b 1) ∧
      (op ≠ .lr → ∀ l ∈ t.cache.lines, l.addr = line → l.cores = []) ∧
      t.out = .coreValue n (if op = .sc then 0 else coreReturn double old) :: s.out ∧
      (op = .lr → t.cache.reserved.get none n = some line) ∧ (op = .sc → t.cache.reserved.get none n = none) ∧
      Safety.sameDevice s t ∧ Safety.sameServing s t ∧ Safety.sameUnits s t ∧ t.front = s.front ∧ Safety.samePorts s t) ∧
    (op = .sc → s.cache.reserved.get none n ≠ some line → ∃ t, exec (.coreAmo n op double addr value hw) s = .next t ∧
      t.mem = s.mem ∧ t.out = .coreValue n 1 :: s.out ∧ t.cache.reserved.get none n = none ∧ t.front = s.front)) ∧
  ∀ (n : Fin 8) (op : CoreOp) (double : Bool) (addr value : DWord) (hw : Hw) (s : State), s.frontRuns = true →
    addr.toNat % (if double then 8 else 4) ≠ 0 ∨ s.allCacheable addr.toNat (if double then 8 else 4) = false → ∃ t,
      exec (.coreAmo n op double addr value hw) s = .next t ∧ t.out = .coreFault n :: s.out ∧ Safety.sameMemory s t ∧
      t.led 0x3400 0x31 = pastTop (8 * entryWidth 0x3400 0x31) (s.led 0x3400 0x31 + 1) ∧ Safety.sameUnits s t ∧
      t.front = s.front

/-! ### The Oven -/

/-- NOP, ADVANCE and SET_EVENT (R407, R408, R416): NOP does nothing but complete; ADVANCE adds its amount to its
counter, up to 2^63 − 1; SET_EVENT gives it the value and clears its error bit. From the ring, no other counter changes
but the one that the header names. -/
def Obligations.EventCommands : Prop :=
  (∀ (x : Issue) (s : State) (r : List Byte) (hw : Hw), Safety.offers s x 0x00 (fun _ => True) r hw →
    s.headerCheck x.queue 0x00 x.header (noCells x.header) false = none → ∃ t, exec (.nop x) s = .next t ∧
      (∀ i, x.place = .ring i → ∀ c, c < 4096 → t.counter c = Safety.signalled x.header c (s.counter c)) ∧
      Safety.actsInOven s t x) ∧
  (∀ (x : Issue) (o : EventOps) (s : State) (r : List Byte) (hw : Hw),
    Safety.offers s x 0x02 (fun r => readEvent r = o) r hw →
    s.headerCheck x.queue 0x02 x.header (noCells x.header) false = none → s.counterCheck x.queue o.counter.toNat = none →
    between 1 o.amount.toNat (2 ^ 32) = true → ∃ t, exec (.advance x o) s = .next t ∧
      (∀ i, x.place = .ring i → ∀ c, c < 4096 → t.counter c = Safety.signalled x.header c
        (if c = o.counter.toNat then { s.counter c with
          value := BitVec.ofNat 63 (min (2 ^ 63 - 1) ((s.counter c).value.toNat + o.amount.toNat)) } else s.counter c)) ∧
      Safety.actsInOven s t x) ∧
  ∀ (x : Issue) (o : EventOps) (s : State) (r : List Byte) (hw : Hw),
    Safety.offers s x 0x03 (fun r => readEvent r = o) r hw →
    s.headerCheck x.queue 0x03 x.header (noCells x.header) false = none → s.counterCheck x.queue o.counter.toNat = none →
    o.amount.toNat < 2 ^ 63 → ∃ t, exec (.setEvent x o) s = .next t ∧
      (∀ i, x.place = .ring i → ∀ c, c < 4096 → t.counter c = Safety.signalled x.header c
        (if c = o.counter.toNat then ⟨BitVec.ofNat 63 o.amount.toNat, false⟩ else s.counter c)) ∧
      Safety.actsInOven s t x

/-- WAIT and its completion (R405, R415, R418): a WAIT whose counter has not reached its target, and has no error bit,
is pending; when it has, it completes. The error bit sets WAIT_ERR, and in a WAIT of the ring with CANCEL discards the
rest of the submission: HEAD moves to where the next one begins, or to TAIL. -/
def Obligations.WaitsForCounters : Prop :=
  (∀ (x : Issue) (o : WaitOps) (s : State) (r : List Byte) (hw : Hw),
    Safety.offers s x 0x01 (fun r => readWait r = o) r hw →
    s.headerCheck x.queue 0x01 x.header (noCells x.header) false = none → o.counter.toNat < 4096 → o.mode.toNat ≤ 1 →
    o.target.toNat < 2 ^ 63 → s.reached o.counter.toNat o.target.toNat = false → ∃ t, exec (.wait x o) s = .next t ∧
      (t.work x.queue).waits = (s.work x.queue).waits ++
        [⟨x.place, x.header, o.counter.toNat, o.target.toNat, o.mode == 1⟩] ∧
      (∀ c, t.counter c = s.counter c) ∧ (t.queue x.queue).completed = (s.queue x.queue).completed ∧
      Safety.actsInOven s t x) ∧
  (∀ (x : Issue) (o : WaitOps) (s : State) (r : List Byte) (hw : Hw) (i : Nat),
    Safety.offers s x 0x01 (fun r => readWait r = o) r hw → x.place = .ring i →
    s.headerCheck x.queue 0x01 x.header (noCells x.header) false = none → o.counter.toNat < 4096 → o.mode.toNat ≤ 1 →
    o.target.toNat < 2 ^ 63 → s.reached o.counter.toNat o.target.toNat = true →
    (s.counter o.counter.toNat).err = false → ∃ t, exec (.wait x o) s = .next t ∧
      (t.work x.queue).waits = (s.work x.queue).waits ∧ (t.queue x.queue).waitErr = (s.queue x.queue).waitErr ∧
      (t.queue x.queue).completed = advanceCnt (s.queue x.queue).completed 1 ∧ Safety.actsInOven s t x) ∧
  (∀ (q : QueueId) (i : Nat) (hw : Hw) (w : PendingWait) (s : State),
    ((s.work q).waits.find? fun w => w.place == .ring i) = some w → s.frontRuns = true →
    s.reached w.counter w.target = true → ∃ t, exec (.waitCompletion q (.ring i) hw) s = .next t ∧
      (t.work q).waits = ((s.work q).waits.filter fun v => v.place != .ring i) ∧
      (t.queue q).completed = advanceCnt (s.queue q).completed 1 ∧
      ((s.counter w.counter).err = true → (t.queue q).waitErr = true) ∧
      ((s.counter w.counter).err = false → (t.queue q).waitErr = (s.queue q).waitErr ∧
        (t.queue q).head = (s.queue q).head) ∧
      ((s.counter w.counter).err = true → w.cancel = true → (t.queue q).head =
        BitVec.ofNat 32 (((s.work q).submissions.head?).getD (s.queue q).tail.toNat)) ∧
      Safety.sameDevice s t ∧ Safety.sameServing s t ∧ Safety.sameMemory s t ∧ Safety.sameUnits s t) ∧
  ∀ (q : QueueId) (p : Place) (hw : Hw) (w : PendingWait) (s : State),
    ((s.work q).waits.find? fun w => w.place == p) = some w → s.reached w.counter w.target = false →
      exec (.waitCompletion q p hw) s = .next s

/-- WRITE (R408, R549): the low bytes of its value stand in cacheable memory at its address, and no other byte changes;
or they leave for the host's memory, where the link is up, and none of this device's changes. RECIPE_LOAD and RECIPE_DROP (R419, R422, R446): an image that
passes the checks is loaded at the lowest free span of the store; a dropped recipe is no longer loaded; no other recipe
changes. -/
def Obligations.WriteAndRecipes : Prop :=
  (∀ (x : Issue) (o : WriteOps) (s : State) (r : List Byte) (hw : Hw),
    Safety.offers s x 0x04 (fun r => readWrite r = o) r hw →
    s.headerCheck x.queue 0x04 x.header (noCells x.header) false = none → s.writeCheck o = none →
    (∀ a, o.dest = 0 → s.localOf o.addr.toNat = some a → a / 128 ∉ s.memctl.lost → ∃ t,
      exec (.write x o) s = .next t ∧ t.memRead a o.size.toNat = toBytes o.size.toNat o.value.toNat ∧
        (∀ b, b < a ∨ a + o.size.toNat ≤ b → t.memRead b 1 = s.memRead b 1) ∧ Safety.sameUnits s t ∧
        Safety.samePorts s t ∧ Safety.actsInFront s t x) ∧
    (o.dest = 1 → s.pcie.up = true → o.addr.toNat + o.size.toNat ≤ 2 ^ 47 → ∃ t, exec (.write x o) s = .next t ∧
      .hostWrite o.addr.toNat (toBytes o.size.toNat o.value.toNat) ∈ t.out ∧ Safety.actsInOven s t x)) ∧
  ((∀ (x : Issue) (o : RecipeLoadOps) (s : State) (r : List Byte) (hw : Hw) (a u : Nat),
    Safety.offers s x 0x09 (fun r => readRecipeLoad r = o) r hw → s.recipeLoadCheck x o = none →
    s.localOf o.addr.toNat = some a → s.intact (granulesOf a o.length.toNat) = true →
    recipeOk (s.memRead a o.length.toNat) = true → s.freeSpan o.recipe.toNat ((o.length.toNat + 4095) / 4096) = some u →
    ∃ t, exec (.recipeLoad x o) s = .next t ∧
      t.recipe o.recipe.toNat = some ⟨s.memRead a o.length.toNat, u, (o.length.toNat + 4095) / 4096⟩ ∧
      (∀ id, id ≠ o.recipe.toNat → t.recipe id = s.recipe id) ∧ Safety.sameUnits s t ∧ Safety.samePorts s t ∧
      Safety.actsInFront s t x) ∧
  ∀ (x : Issue) (recipe : Half) (s : State) (r : List Byte) (hw : Hw),
    Safety.offers s x 0x0A (fun r => rec16 r 8 = recipe) r hw →
    s.headerCheck x.queue 0x0A x.header (noCells x.header) false = none → recipe.toNat < 1024 → ∃ t,
      exec (.recipeDrop x recipe) s = .next t ∧ t.recipe recipe.toNat = none ∧
      (∀ id, id ≠ recipe.toNat → t.recipe id = s.recipe id) ∧ Safety.actsInOven s t x)

/-- BAKE, PARK and the bake of a wake (R423, R428, R429): a BAKE of a loaded recipe starts a bake of it, with its nodes
patched by the parameters of its block, as the Oven read it ahead or else as it stands at its address; PARK makes the queue a
proofer; a wake takes one from WAKES and bakes with the next slot. -/
def Obligations.BakesBegin : Prop :=
  (∀ (x : Issue) (o : BakeOps) (s : State) (r : List Byte) (hw : Hw) (rc : Recipe) (a i : Nat),
    Safety.offers s x 0x05 (fun r => readBake r = o) r hw → x.place = .ring i → s.bakeCheck x o = none →
    s.recipe o.recipe.toNat = some rc → (recipeHead rc.image).params = o.count.toNat →
    a = o.params.toNat % 2 ^ 44 → s.intact (granulesOf a (8 * o.count.toNat)) = true → ∃ t,
      exec (.bake x o) s = .next t ∧
      (∃ b, (t.work x.queue).bakes = (s.work x.queue).bakes ++ [b] ∧ b.number = (s.work x.queue).nextBake ∧
        b.recipe = o.recipe.toNat ∧ b.header = x.header ∧ b.edges = recipeEdges rc.image ∧
        b.records = (recipePatches rc.image).foldl (applyPatch (paramsOf
            ((s.readBlock x.queue x.place o.params.toNat (8 * o.count.toNat)).getD (s.memRead a (8 * o.count.toNat)))))
          (recipeNodes rc.image) ∧ b.nodes = b.records.map (fun _ => .unissued) ∧ b.wake = false) ∧
      (t.queue x.queue).completed = (s.queue x.queue).completed ∧ t.mem = s.mem ∧ Safety.sameUnits s t ∧
      Safety.samePorts s t ∧ Safety.actsInFront s t x) ∧
  (∀ (x : Issue) (o : ParkOps) (s : State) (r : List Byte) (hw : Hw),
    Safety.offers s x 0x08 (fun r => readPark r = o) r hw → s.parkCheck x o = none → ∃ t,
      exec (.park x o) s = .next t ∧
      (t.work x.queue).proofer =
        some ⟨o.recipe.toNat, o.count.toNat, o.slots.toNat, o.params.toNat, x.header, 0⟩ ∧
      (t.queue x.queue).completed = advanceCnt (s.queue x.queue).completed 1 ∧
      ((s.queue x.queue).enable = true → (s.work x.queue).bakes = [] → (t.queue x.queue).state = .parked) ∧
      Safety.actsInOven s t x) ∧
  ∀ (q : QueueId) (p : Proofer) (hw : Hw) (s : State) (rc : Recipe), (s.work q).proofer = some p → s.frontRuns = true →
    s.turn = some q.val → s.wakeReady q = true → Safety.clean hw → Safety.sound s → s.recipe p.recipe = some rc →
    (recipeHead rc.image).params = p.count → ∃ t,
      exec (.prooferWakeBake q hw) s = .next t ∧ (t.queue q).wakes = (s.queue q).wakes - 1 ∧
      (t.work q).proofer = some { p with baked := p.baked + 1 } ∧
      (∃ b, (t.work q).bakes = (s.work q).bakes ++ [b] ∧ b.recipe = p.recipe ∧ b.header = p.header ∧ b.wake = true ∧
        b.records = (recipePatches rc.image).foldl
          (applyPatch (paramsOf (s.memRead ((p.params + 512 * (p.baked % p.slots)) % 2 ^ 44) (8 * p.count))))
          (recipeNodes rc.image)) ∧
      t.mem = s.mem ∧ Safety.sameUnits s t ∧ Safety.sameDevice s t ∧ Safety.sameServing s t

/-- ENQUEUE (R403, R426): with PUBLISH it moves the target's tail past what was enqueued; without it the records wait to
be published. The target's ring stays where it is. The six actions of QUEUE_CTL (R408, R414, R429, R430, R436, R438,
R440) on a queue other than the one that issues them: the window or the range takes its values; STOP holds the queue,
START releases it; a FAULTED queue returns to IDLE, a proofer gets a wake; RESET makes the queue RESETTING with cause
COMMANDED; UNPARK ends a proofer and discards its wakes. -/
def Obligations.EnqueueAndQueueControl : Prop :=
  (∀ (x : Issue) (o : EnqueueOps) (s : State) (r : List Byte) (hw : Hw) (a : Nat),
    Safety.offers s x 0x06 (fun r => readEnqueue r = o) r hw → s.enqueueCheck x o = none →
    s.localOf o.source.toNat = some a → s.intact (granulesOf a (64 * o.count.toNat)) = true → ∃ t,
      exec (.enqueue x o) s = .next t ∧
      (o.flags.getLsbD 0 = true → (t.work o.target.toNat).unpublished = 0 ∧ (t.queue o.target.toNat).tail =
        (s.queue o.target.toNat).tail + BitVec.ofNat 32 ((s.work o.target.toNat).unpublished + o.count.toNat)) ∧
      (o.flags.getLsbD 0 = false → (t.queue o.target.toNat).tail = (s.queue o.target.toNat).tail ∧
        (t.work o.target.toNat).unpublished = (s.work o.target.toNat).unpublished + o.count.toNat) ∧
      (t.queue o.target.toNat).ringBase = (s.queue o.target.toNat).ringBase ∧ Safety.sameUnits s t ∧
      Safety.samePorts s t ∧ Safety.actsInFront s t x) ∧
  (∀ (x : Issue) (o : ControlOps) (s : State) (r : List Byte) (hw : Hw) (k : Nat), k = o.target.toNat → k ≠ x.queue.val →
    (∀ action, 1 ≤ action → action ≤ 6 → s.controlCheck x o action = none →
      Safety.offers s x 0x0B (fun r => readControl r = o ∧ recNat r 9 1 = action) r hw →
      (action = 1 → ∃ t, exec (.setLaneWindow x o) s = .next t ∧
        t.queue k = { s.queue k with laneFirst := BitVec.ofNat 8 o.first.toNat, laneCount := BitVec.ofNat 9 o.count.toNat } ∧
        Safety.actsInOven s t x) ∧
      (action = 2 → ∃ t, exec (.setEventRange x o) s = .next t ∧
        t.queue k = { s.queue k with eventBase := BitVec.ofNat 12 o.first.toNat, eventCount := BitVec.ofNat 13 o.count.toNat } ∧
        Safety.actsInOven s t x) ∧
      (action = 3 → ∃ t, exec (.stop x o) s = .next t ∧ (t.work k).held = true ∧ t.queue k = s.queue k ∧
        Safety.actsInOven s t x) ∧
      (action = 4 → ∃ t, exec (.start x o) s = .next t ∧ (t.work k).held = false ∧
        ((s.queue k).state = .faulted → (t.queue k).state ≠ .faulted) ∧
        (s.parked k = true → (t.queue k).wakes = BitVec.ofNat 32 (min (2 ^ 32 - 1) ((s.queue k).wakes.toNat + 1))) ∧
        Safety.actsInOven s t x) ∧
      (action = 5 → (s.queue k).state ≠ .resetting → (s.queue k).state ≠ .faulted → ∃ t,
        exec (.reset x o) s = .next t ∧ (t.queue k).state = .resetting ∧
        (t.queue k).faultRecord = faultRecord k 0xFF 0xFFFF 0xFFFF (s.queue k).head.toNat (ovenFault 17 x.queue) ∧
        t.led 0x6000 0x31 = ofBytes (t.queue k).faultRecord ∧ Safety.actsInOven s t x) ∧
      (action = 6 → (s.work k).proofer.isSome = true → ∃ t, exec (.unpark x o) s = .next t ∧
        (t.work k).proofer = none ∧ (t.queue k).wakes = 0 ∧ (t.work k).bakes = (s.work k).bakes ∧
        Safety.actsInOven s t x)))

/-- A record that fails a check faults its queue (R411, R435, R436): whatever a NOP's mask, window or header breaks, the
queue that issued it is RESETTING, and its fault record names the cause, the opcode and the detail. -/
def Obligations.FailedChecksFaultTheQueue : Prop :=
  ∀ (x : Issue) (s : State) (r : List Byte) (hw : Hw) (f : QFault) (i : Nat),
    Safety.offers s x 0x00 (fun _ => True) r hw → x.place = .ring i →
    s.headerCheck x.queue 0x00 x.header (noCells x.header) false = some f → ∃ t, exec (.nop x) s = .next t ∧
      (t.queue x.queue).state = .resetting ∧
      (t.queue x.queue).faultRecord = faultRecord x.queue 0x00 0xFFFF 0xFFFF (i % 2 ^ 32) f ∧
      t.led 0x6000 0x31 = ofBytes (t.queue x.queue).faultRecord ∧ (∀ c, t.counter c = s.counter c) ∧
      (t.queue x.queue).completed = (s.queue x.queue).completed ∧ Safety.actsInOven s t x

/-! ### The cells -/

/-- The elementwise SIEVE operations (R51, R52, R222, R410): each writes its result for every element of every vector,
in the output format, and nothing else in the cell. -/
def Obligations.SieveElementwise : Prop :=
  Safety.elementLaw .sieveAdd 0x01 (fun _ a b _ => (f32Add a b).1) ∧
    Safety.elementLaw .sieveSub 0x02 (fun _ a b _ => (f32Sub a b).1) ∧
    Safety.elementLaw .sieveMul 0x03 (fun _ a b _ => (f32Mul a b).1) ∧
    Safety.elementLaw .sieveFma 0x04 (fun _ a b c => (f32Fma a b c).1) ∧
    Safety.elementLaw .sieveMax 0x05 (fun _ a b _ => (f32Max a b).1) ∧
    Safety.elementLaw .sieveMin 0x06 (fun _ a b _ => (f32Min a b).1) ∧
    Safety.elementLaw .cmp 0x07 (fun o a b _ => if cmpHolds o.immU.toNat a b then f32One else 0) ∧
    Safety.elementLaw .sel 0x08 (fun _ a b c => if (f32Value c).isZero then b else a) ∧
    Safety.elementLaw .cvt 0x09 (fun _ a _ _ => a) ∧
    Safety.elementLaw .exp2 0x0A (fun _ a _ _ => (f32Exp2 a).1) ∧
    Safety.elementLaw .exp 0x0B (fun _ a _ _ => (f32Exp a).1) ∧
    Safety.elementLaw .rcp 0x0C (fun _ a _ _ => (f32Rcp a).1) ∧
    Safety.elementLaw .log2 0x0D (fun _ a _ _ => (f32Log2 a).1) ∧
    Safety.elementLaw .ln 0x0E (fun _ a _ _ => (f32Ln a).1) ∧
    Safety.elementLaw .rsqrt 0x0F (fun _ a _ _ => (f32Rsqrt a).1) ∧
    Safety.elementLaw .scaleCol 0x13 (fun _ a b _ => (f32Mul a b).1)

/-- SUM, RMAX, RMIN, TOPK_SCAN and PHILOX (R53, R410, R469, R470): a reduction writes one FP32 for each vector, a scan
its k first entries in order, PHILOX four words for each counter and key. -/
def Obligations.SieveReductions : Prop :=
  (Safety.sieveLaw .sum (fun o => ⟨0x10, o.n.toNat * fmtBytes (SieveOps.inFmt o), 0, 0, 4, o.n.toNat, false, true⟩)
    fun s o c v => toBytes 4 (treeReduce f32Add (s.sieveA o c 0x10 v o.n.toNat)).1.toNat) ∧
  (Safety.sieveLaw .rmax (fun o => ⟨0x11, o.n.toNat * fmtBytes (SieveOps.inFmt o), 0, 0, 4, o.n.toNat, false, true⟩)
    fun s o c v => toBytes 4 (treeReduce f32Max (s.sieveA o c 0x11 v o.n.toNat)).1.toNat) ∧
  (Safety.sieveLaw .rmin (fun o => ⟨0x12, o.n.toNat * fmtBytes (SieveOps.inFmt o), 0, 0, 4, o.n.toNat, false, true⟩)
    fun s o c v => toBytes 4 (treeReduce f32Min (s.sieveA o c 0x12 v o.n.toNat)).1.toNat) ∧
  (Safety.sieveLaw .topkScan
    (fun o => ⟨0x16, o.n.toNat * fmtBytes (SieveOps.inFmt o), 0, 0, 8 * o.immU.toNat, o.n.toNat, false, false⟩)
    fun s o c v => topkBytes (topk ((s.sieveA o c 0x16 v o.n.toNat).zip (countFrom 0 o.n.toNat)) o.immU.toNat)) ∧
  Safety.sieveLaw .philox
    (fun o => ⟨0x17, 16 * o.n.toNat, 8 * o.n.toNat, 0, 16 * o.n.toNat, 4 * o.n.toNat, false, false⟩)
    fun s o c v => (countFrom 0 o.n.toNat).flatMap fun i =>
      let word (base k : Nat) : Word := BitVec.ofNat 32 (s.bufNat c (base + v * o.stride.toNat + 4 * k) 4)
      let counter : List Word := (countFrom (4 * i) 4).map fun k =>
        if o.aSource = 1 then s.accWord c (o.first.toNat + v) (o.a.toNat + k) else word o.a.toNat k
      (philox counter (word o.b.toNat (2 * i), word o.b.toNat (2 * i + 1))).flatMap fun w => toBytes 4 w.toNat

/-- STAT_UPDATE, ROPE and STAT (R219, R220, R289 to R291, R305): a statistics row at (−∞, +0) takes the block's maximum
and sum, and the block's BF16 probabilities are written, and any other row takes the running maximum; ROPE turns every
pair of every head by its position's angle; STAT clears rows, copies them to the buffer and back. -/
def Obligations.StatisticsAndRotation : Prop :=
  (∀ (x : Issue) (o : SieveOps) (s : State) (r : List Byte) (hw : Hw) (c : Nat) (p : SieveSpans),
    p = ⟨0x15, o.n.toNat * fmtBytes (SieveOps.inFmt o), 0, 0, 2 * o.n.toNat, o.n.toNat, false, false⟩ →
    Safety.offers s x 0x22 (fun r => readSieve r = o ∧ recNat r 8 1 = 0x15) r hw → s.sieveCheck x o p = none →
    cellsOf x.header.mask = [c] → Safety.apart o p → ∃ t, exec (.statUpdate x o) s = .next t ∧
      (∀ v, v < o.vectors.toNat → ∀ b, b = blockStats (fun _ => true) (scaleScores (s.sieveA o c 0x15 v o.n.toNat) o.immF).1 →
        (s.statRow c (o.first.toNat + v) = StatRow.blank → t.statRow c (o.first.toNat + v) = ⟨b.1, b.2.1⟩ ∧
          t.bufRead c (o.d.toNat + v * o.stride.toNat) p.d = b.2.2.1.flatMap fun w => toBytes 2 w.toNat) ∧
        (s.statRow c (o.first.toNat + v) ≠ StatRow.blank → (t.statRow c (o.first.toNat + v)).max =
          (f32Max (s.statRow c (o.first.toNat + v)).max b.1).1)) ∧
      (∀ c' row, row < 4096 → c' ≠ c ∨ row < o.first.toNat ∨ o.first.toNat + o.vectors.toNat ≤ row →
        t.statRow c' row = s.statRow c' row) ∧
      (∀ off, off < 2 ^ 23 → Safety.noResult o p off → t.bufRead c off 1 = s.bufRead c off 1) ∧
      t.cells.acc = s.cells.acc ∧ t.reed = s.reed ∧ Safety.flying s t x 0x22 ∧ Safety.actsInUnits s t x) ∧
  (∀ (x : Issue) (o : RopeOps) (s : State) (r : List Byte) (hw : Hw) (c n size : Nat),
    n = o.heads.toNat * o.d.toNat → size = (o.vectors.toNat - 1) * o.outStride.toNat + 2 * n →
    Safety.offers s x 0x23 (fun r => readRope r = o) r hw → s.ropeCheck x o = none →
    cellsOf x.header.mask = [c] →
    (∀ v, v < o.vectors.toNat → s.bufNat c (o.positions.toNat + 4 * v) 4 ≤ 65535) →
    (o.vectors.toNat = 1 ∨ 2 * n ≤ o.outStride.toNat ∧ Safety.off o.outBase.toNat size o.table.toNat (2048 * o.r.toNat) ∧
      Safety.off o.outBase.toNat size o.positions.toNat (4 * o.vectors.toNat) ∧ (o.source = 1 ∨
        Safety.off o.outBase.toNat size o.inBase.toNat ((o.vectors.toNat - 1) * o.inStride.toNat + 4 * n))) → ∃ t,
      exec (.rope x o) s = .next t ∧
      (∀ v h, v < o.vectors.toNat → h < o.heads.toNat → ∀ elem : Nat → F32,
        (∀ j, elem j = if o.source = 1 then s.accWord c (o.firstLane.toNat + v) (o.inBase.toNat + h * o.d.toNat + j)
          else BitVec.ofNat 32 (s.bufNat c (o.inBase.toNat + v * o.inStride.toNat + 4 * (h * o.d.toNat + j)) 4)) →
        (∀ i, i < o.r.toNat / 2 →
          ∀ a j, a = s.ropeAngle c o (s.bufNat c (o.positions.toNat + 4 * v) 4) i → j = ropePair o i →
          let out (k : Nat) : Nat := o.outBase.toNat + v * o.outStride.toNat + 2 * (h * o.d.toNat + k)
          t.bufNat c (out j.1) 2 = (f32ToBf16 (rotTerm (elem j.1) a.1 (elem j.2) a.2.1 true).1).1.toNat ∧
            t.bufNat c (out j.2) 2 = (f32ToBf16 (rotTerm (elem j.1) a.2.1 (elem j.2) a.1 false).1).1.toNat) ∧
        ∀ j, o.r.toNat ≤ j → j < o.d.toNat →
          t.bufNat c (o.outBase.toNat + v * o.outStride.toNat + 2 * (h * o.d.toNat + j)) 2 =
            (f32ToBf16 (elem j)).1.toNat) ∧
      Safety.onlyBuffer s t c (fun off => ∃ v, v < o.vectors.toNat ∧ o.outBase.toNat + v * o.outStride.toNat ≤ off ∧
        off < o.outBase.toNat + v * o.outStride.toNat + 2 * n) ∧
      t.reed = s.reed ∧ Safety.flying s t x 0x23 ∧ Safety.actsInUnits s t x) ∧
  ∀ (x : Issue) (o : StatOps) (s : State) (r : List Byte) (hw : Hw) (c action : Nat) (keeps : Nat → Nat → Prop),
    (∀ c' row, keeps c' row ↔ c' ≠ c ∨ row < o.firstRow.toNat ∨ o.firstRow.toNat + o.rows.toNat ≤ row) →
    Safety.offers s x 0x24 (fun r => readStat r = o ∧ recNat r 8 1 = action) r hw →
    s.statCheck x o (action != 0) = none → cellsOf x.header.mask = [c] →
    (action = 0 → ∃ t, exec (.statInit x o) s = .next t ∧
      (∀ i, i < o.rows.toNat → t.statRow c (o.firstRow.toNat + i) = StatRow.blank) ∧
      (∀ c' row, row < 4096 → keeps c' row → t.statRow c' row = s.statRow c' row) ∧ t.cells.buf = s.cells.buf ∧
      t.cells.acc = s.cells.acc ∧ t.reed = s.reed ∧ Safety.flying s t x 0x24 ∧ Safety.actsInUnits s t x) ∧
    (action = 1 → ∃ t, exec (.statRead x o) s = .next t ∧
      (∀ i, i < o.rows.toNat →
        t.bufNat c (o.offset.toNat + 8 * i) 4 = (s.statRow c (o.firstRow.toNat + i)).max.toNat ∧
          t.bufNat c (o.offset.toNat + 8 * i + 4) 4 = (s.statRow c (o.firstRow.toNat + i)).sum.toNat) ∧
      Safety.onlyBuffer s t c (fun off => o.offset.toNat ≤ off ∧ off < o.offset.toNat + 8 * o.rows.toNat) ∧
      t.reed = s.reed ∧ Safety.flying s t x 0x24 ∧ Safety.actsInUnits s t x) ∧
    (action = 2 → ∃ t, exec (.statWrite x o) s = .next t ∧
      (∀ i, i < o.rows.toNat → t.statRow c (o.firstRow.toNat + i) =
        ⟨BitVec.ofNat 32 (s.bufNat c (o.offset.toNat + 8 * i) 4),
          BitVec.ofNat 32 (s.bufNat c (o.offset.toNat + 8 * i + 4) 4)⟩) ∧
      (∀ c' row, row < 4096 → keeps c' row → t.statRow c' row = s.statRow c' row) ∧ t.cells.buf = s.cells.buf ∧
      t.cells.acc = s.cells.acc ∧ t.reed = s.reed ∧ Safety.flying s t x 0x24 ∧ Safety.actsInUnits s t x)

/-- KNEAD and DRAIN (R41, R48, R206, R216, R218, R229, R257, R261): every word of the lanes of a pass is the exact sum of its
products and of what it accumulates on, rounded once; a variant tile that fails a check faults the queue with BAD_DELTA and
leaves its delta fault record, one whose blocks run off the buffer faults it with BAD_ADDRESS; no accumulator outside the
lanes and no byte of a buffer changes. DRAIN writes the accumulators in the output format and leaves them as they are. -/
def Obligations.KneadAndDrain : Prop :=
  (∀ (x : Issue) (o : KneadOps) (s : State) (r : List Byte) (hw : Hw) (c : Nat) (f : WFmt),
    Safety.offers s x 0x20 (fun r => readKnead r = o) r hw → s.kneadCheck x o = none →
    cellsOf x.header.mask = [c] → wfmtOf o.format = some f →
    (∀ code, s.passCodes c f o = .ok code → ∃ t draw, exec (.knead x o) s = .next t ∧
      (∀ j col, j < o.lanes.toNat → col < 512 → t.accWord c (o.firstLane.toNat + j) col =
        (passElement
          ((countFrom 0 f.span).map fun k => f.input (s.bufReader c) (o.inBase.toNat + j * o.inStride.toNat) k)
          ((countFrom 0 f.span).map fun k => f.weight code k col) (s.passStart draw c o j col)
          (o.mode == 1 && decide (col < o.columns.toNat))).1) ∧
      (∀ c' lane col, lane < 256 → col < 512 → c' ≠ c ∨ lane < o.firstLane.toNat ∨
        o.firstLane.toNat + o.lanes.toNat ≤ lane → t.accWord c' lane col = s.accWord c' lane col) ∧
      t.cells.buf = s.cells.buf ∧ t.cells.stat = s.cells.stat ∧ t.reed = s.reed ∧ Safety.flying s t x 0x20 ∧
      Safety.actsInUnits s t x) ∧
    ∀ e, s.passCodes c f o = .error e → ∃ t, exec (.knead x o) s = .next t ∧
      (e.cause = .beyond → Safety.faulted t x 0x20 5) ∧
      (e.cause ≠ .beyond → Safety.faulted t x 0x20 7 ∧ t.led (0x4000 + c) 0x42 = e.record) ∧
      (∀ c' lane col, lane < 256 → col < 512 → c' ≠ c ∨ lane < o.firstLane.toNat ∨
        o.firstLane.toNat + o.lanes.toNat ≤ lane → t.accWord c' lane col = s.accWord c' lane col) ∧
      t.cells.buf = s.cells.buf ∧ t.reed = s.reed ∧ Safety.actsInUnits s t x) ∧
  ∀ (x : Issue) (o : DrainOps) (s : State) (r : List Byte) (hw : Hw) (c : Nat) (f : OutFmt),
    Safety.offers s x 0x21 (fun r => readDrain r = o) r hw → s.drainCheck x o = none →
    cellsOf x.header.mask = [c] → outFmtOf o.format.toNat = some f → ∃ t, exec (.drain x o) s = .next t ∧
      (∀ j col, j < o.lanes.toNat → col < o.columns.toNat →
        t.bufRead c (o.outBase.toNat + j * o.outStride.toNat + f.bytes * col) f.bytes =
          (f.convert (s.accWord c (o.firstLane.toNat + j) col)).1) ∧
      Safety.onlyBuffer s t c (fun off => ∃ j, j < o.lanes.toNat ∧ o.outBase.toNat + j * o.outStride.toNat ≤ off ∧
        off < o.outBase.toNat + j * o.outStride.toNat + f.bytes * o.columns.toNat) ∧
      t.reed = s.reed ∧ Safety.flying s t x 0x21 ∧ Safety.actsInUnits s t x

/-- DMA_COPY (R16, R231, R239, R409, R549): whatever its ends, only its destinations change; one copy of a cell delivers
the bytes of its source, from the cell's buffer, this device's memory or the host's, to buffers, memory or the host. -/
def Obligations.DmaCopiesItsSource : Prop :=
  ∀ (x : Issue) (o : DmaOps) (s : State) (r : List Byte) (hw : Hw) (n : Nat) (dest : Nat → Nat), n = o.length.toNat →
    (∀ i, dest i = o.dest.toNat + i * (o.destStride.toNat * 128)) →
    Safety.offers s x 0x10 (fun r => readDma r = o) r hw → s.dmaCheck x o = none →
    (∃ t, exec (.dmaCopy x o) s = .next t ∧
      (o.destKind = 0 → ∀ b, (∀ i a, i < o.repeats.toNat → s.target (dest i) n = .here a → b < a ∨ a + n ≤ b) →
        t.memRead b 1 = s.memRead b 1) ∧
      (o.destKind ≠ 0 → t.mem = s.mem) ∧ (o.destKind = 0 ∨ o.destKind = 2 → t.cells.buf = s.cells.buf) ∧
      (o.destKind = 1 ∨ o.destKind = 3 → ∀ c off, off < 2 ^ 23 →
        (∀ i, i < o.repeats.toNat → off < dest i ∨ dest i + n ≤ off) → t.bufRead c off 1 = s.bufRead c off 1) ∧
      t.cells.acc = s.cells.acc ∧ t.cells.stat = s.cells.stat ∧ t.reed = s.reed ∧ Safety.actsInFront s t x) ∧
    ∀ (c : CellId) (bytes : List Byte), cellIds x.header.mask = [c] → o.repeats = 1 → bytes.length = n →
      (o.sourceKind = 1 ∧ bytes = s.bufRead c o.source.toNat n ∨
        o.sourceKind = 2 ∧ s.pcie.up = true ∧ (∃ rest, hw.host = .data bytes :: rest) ∨
        o.sourceKind = 0 ∧ ∃ a, s.target o.source.toNat n = .here a ∧ bytes = s.memRead a n) → ∃ t,
      exec (.dmaCopy x o) s = .next t ∧
      (o.destKind = 1 → t.bufRead c o.dest.toNat n = bytes ∧ Safety.flying s t x 0x10) ∧
      (o.destKind = 3 → (∀ d ∈ cellIds o.multicast, t.bufRead d o.dest.toNat n = bytes) ∧ Safety.flying s t x 0x10) ∧
      (∀ b, o.destKind = 0 → s.target o.dest.toNat n = .here b → t.memRead b n = bytes ∧ Safety.flying s t x 0x10) ∧
      (o.destKind = 2 → s.pcie.up = true → .hostWrite o.dest.toNat bytes ∈ t.out ∧ Safety.flying s t x 0x10)

/-- KV_APPEND (R282 to R285, R293, R295): rows that lie in one page of this device are written to their slots of its
frame; the page list names the page, takes the reserved one where the entry had none, and its length covers the rows; no
other byte of memory changes. -/
def Obligations.KvAppendWritesRows : Prop :=
  ∀ (x : Issue) (o : AppendOps) (s : State) (r : List Byte) (hw : Hw) (c a p n e old pn f slot : Nat) (d : Pool)
      (h : ListHead),
    Safety.offers s x 0x30 (fun r => readAppend r = o) r hw → s.appendCheck x o = none →
    cellsOf x.header.mask = [c] → s.pool o.pool.toNat = some d →
    s.cacheableAt o.list.toNat 64 = some a → h = listHead (s.memRead a 64) →
    (h.pool = o.pool.toNat ∧ h.seq ≤ 4095 ∧ bit d.mask h.home = true ∧ s.allCacheable a (64 + 4 * h.cap) = true) →
    p = o.position.toNat → n = o.count.toNat → p ≤ h.len → p + n ≤ 65536 → e = p / d.size → (p + n - 1) / d.size = e →
    e < h.cap → old = s.memNat (a + 64 + 4 * e) 4 → pn = (if old = noPage then h.reserved else old) →
    (old = noPage → p = e * d.size ∧ h.reserved ≠ noPage) → s.pageNamed d pn = true → s.ownPage pn = true →
    pageCell pn = c → f = s.memNat (c * 2 ^ 33 + d.table + 4 * pageIndex pn) 4 → f < d.frames →
    slot = d.slotAddress c o.layer.toNat f (p - e * d.size) →
    Safety.off slot (n * d.row) a (64 + 4 * h.cap) → ∃ t, exec (.kvAppend x o) s = .next t ∧
      t.memRead slot (n * d.row) = s.bufRead c o.source.toNat (n * d.row) ∧
      t.memNat (a + 64 + 4 * e) 4 = pn ∧ t.memNat a 4 = max h.len (p + n) ∧
      t.memNat (a + 8) 4 = (if old = noPage then noPage else h.reserved) ∧
      (∀ b, b < slot ∨ slot + n * d.row ≤ b → b < a ∨ a + 12 ≤ b → b < a + 64 + 4 * e ∨ a + 68 + 4 * e ≤ b →
        t.memRead b 1 = s.memRead b 1) ∧
      Safety.sameUnits s t ∧ Safety.samePorts s t ∧ Safety.flying s t x 0x30 ∧ Safety.actsInFront s t x

/-- KV_ATTEND (R298 to R305, R309): a launch of one query whose visible positions lie in one page of this device, which no cell
of the pool finds fault with, initializes and completes the record of each query head with the block's statistics and output,
merged into an empty record and finished; nothing else of memory and no byte of a buffer changes, and the launch is in flight
until its readout. -/
def Obligations.KvAttendMergesOnePage : Prop :=
  ∀ (x : Issue) (o : AttendOps) (s : State) (r : List Byte) (hw : Hw) (t0 e pn f c : Nat) (d : Pool) (y : Query)
      (plans : List CellPlan) (rows : List Byte) (staged : State) (record : Nat → Nat),
    Safety.offers s x 0x31 (fun r => readAttend r = o) r hw → s.attendCheck x o = none →
    s.pool o.pool.toNat = some d → d.dim ≤ 256 → o.queries = 1 → s.cacheableAt o.table.toNat 16 = some t0 →
    plans = (State.plan hw o d (cellsOf x.header.mask) (s, true)).2 → plans.flatMap CellPlan.faults = [] →
    launchQueries plans = [y] → y.pages d = [e] →
    plans.flatMap (fun p => p.kept.map fun k => (p.cell, k.entry, k.page, k.frame)) = [(c, e, pn, f)] →
    s.ownPage pn = true →
    rows = s.memRead (d.slotAddress c o.layer.toNat f (y.slots d e).1) ((y.slots d e).2 * d.row) →
    staged = { s with cells := { s.cells with
      stage := s.cells.stage.set none c (some (stageOf d rows (y.slots d e).1 (y.slots d e).2)) } } →
    (∀ h, record h = (y.record h).1 % 2 ^ 44) →
    (∀ h, h < d.queryHeads → (s.cacheableAt (y.record h).2 1152).isSome = true ∧
      (∀ g, g < h → Safety.off (record g) lseBytes (record h) lseBytes) ∧
      Safety.off (record h) lseBytes (d.slotAddress c o.layer.toNat f (y.slots d e).1) ((y.slots d e).2 * d.row)) → ∃ t,
      exec (.kvAttend x o) s = .next t ∧
      (∀ h z w, h < d.queryHeads →
        z = (LseRec.fold ⟨negInf, 0, d.dim, 1, 0, true, false, false, (y.record h).2, o.event.toNat, 0, 0,
          List.replicate d.dim 0⟩
          (staged.headPartial o d c y.lane h (y.slots d e).1 (y.slots d e).2).1).1.finalize.1 →
        w = readLse (t.memRead (record h) lseBytes) →
        w.done = true ∧ w.err = false ∧ w.m = z.m ∧ w.s = z.s ∧ w.o = z.o ∧ w.lse = z.lse ∧ w.next = 1) ∧
      (∀ b, (∀ h, h < d.queryHeads → b < record h ∨ record h + lseBytes ≤ b) → t.memRead b 1 = s.memRead b 1) ∧
      t.cells.buf = s.cells.buf ∧ t.reed = s.reed ∧ Safety.samePorts s t ∧
      Safety.flying s t x 0x31 0 (some ⟨o, [y]⟩) ∧ Safety.actsInFront s t x

/-- BUILD_TABLES and PACK_DELTAS (R245, R253 to R256, R436): a build adds the symbol counts of its tiles to the histogram and,
with FINISH, writes the descriptor with its code tables; a pack appends every block in its stored form to the block
area, enters it in the index and advances the bytes of the block area, and what it writes at its completion is the new count of
tiles packed; no other byte of memory changes. -/
def Obligations.DeltaStreams : Prop :=
  (∀ (x : Issue) (o : DeltaOps) (s : State) (r : List Byte) (hw : Hw) (f : WFmt) (base var hist desc : Nat)
      (old : List Byte) (h : List Nat × List Nat),
    Safety.offers s x 0x38 (fun r => readDelta r = o) r hw → s.buildCheck x o = none → wfmtOf o.format = some f → base = o.baseStream.toNat % 2 ^ 44 →
    var = o.variantFull.toNat % 2 ^ 44 → hist = o.histogram.toNat % 2 ^ 44 → desc = o.descriptor.toNat % 2 ^ 44 →
    old = (if DeltaOps.clear o then List.replicate 512 0 else s.memRead hist 512) →
    h = s.countTiles f base var o.firstTile.toNat o.tiles.toNat (histogramAt old 0, histogramAt old 1) → ∃ t,
      exec (.buildTables x o) s = .next t ∧ t.memRead hist 512 = histogramBytes h.1 h.2 ∧
      (DeltaOps.finish o = true → t.memRead desc 64 = descriptorBytes f o.tensorTag.toNat o.variant.toNat o.baseTag.toNat
        (o.firstTile.toNat + o.tiles.toNat) (buildTable h.1) (buildTable h.2)) ∧
      (∀ b, b < hist ∨ hist + 512 ≤ b → DeltaOps.finish o = false ∨ b < desc ∨ desc + 64 ≤ b →
        t.memRead b 1 = s.memRead b 1) ∧
      Safety.sameUnits s t ∧ Safety.samePorts s t ∧ Safety.flying s t x 0x38 ∧ Safety.actsInFront s t x) ∧
  ∀ (x : Issue) (o : DeltaOps) (s : State) (r : List Byte) (hw : Hw) (c desc area : Nat) (d : StreamHead) (f : WFmt)
      (packed : List (BlockMode × List Byte)) (before : Nat → Nat),
    Safety.offers s x 0x39 (fun r => readDelta r = o) r hw → s.packCheck x o = none →
    cellsOf x.header.mask = [c] → desc = o.descriptor.toNat % 2 ^ 44 →
    d = streamHead (s.memRead desc 64) → wfmtOf d.format = some f → d.blocks = d.tiles * f.blocks →
    o.firstTile.toNat = d.packed → d.packed + o.tiles.toNat ≤ d.tiles → s.extentFault c (packExtents o f d) = none →
    area = desc + areaOffset f d.tiles + d.area →
    packed = ((countFrom d.packed o.tiles.toNat).flatMap fun k => (countFrom 0 f.blocks).map fun i =>
      packBlock d.tag (k * f.blocks + i) (f.blockWidth i) (if f = .mxfp4 ∧ i = 32 then d.scale else d.elem)
        (s.memCodes (o.baseStream.toNat % 2 ^ 44 + k * f.tileBytes) f i)
        (s.memCodes (o.variantFull.toNat % 2 ^ 44 + k * f.tileBytes) f i)) →
    (∀ k, before k = ((packed.take k).map fun b => b.2.length).sum) → ∃ t, exec (.packDeltas x o) s = .next t ∧
      t.memRead area (before packed.length) = packed.flatMap Prod.snd ∧
      (∀ k b, packed[k]? = some b → t.memNat (desc + 64 + 4 * (d.packed * f.blocks + k)) 4 =
        ((d.area + before k) / 16 * 16 + b.1.bits) % 2 ^ 32) ∧
      t.memNat (desc + 52) 4 = (d.area + before packed.length) % 2 ^ 32 ∧
      (∀ b, b < desc + 52 ∨ desc + 56 ≤ b →
        b < desc + 64 + 4 * (d.packed * f.blocks) ∨ desc + 64 + 4 * (d.packed * f.blocks + packed.length) ≤ b →
        b < area ∨ area + before packed.length ≤ b → t.memRead b 1 = s.memRead b 1) ∧
      Safety.sameUnits s t ∧ Safety.samePorts s t ∧
      Safety.flying s t x 0x39 0 none [(desc + 56, toBytes 4 (d.packed + o.tiles.toNat))] ∧ Safety.actsInFront s t x

/-! ### The Reed arrays -/

/-- REED_RUN, REED_READOUT and REED_PROGRAM reach an array (R360, R364, R369, R373, R376, R378, R380): behind a run that has
begun, or while a test check or a recalibration is due, a run waits in the array's order; a run on an idle array begins when its
frame target is reached and its groups are VALID; a readout writes its slots' scaled values and clears them if asked to; a
programming takes its write-ahead and begins its pulses. When its iterations have brought it to its end with OK, its group is
VALID, bears the tag and holds the weights of the source, and the endurance count is exact; no cell outside its rows changes. -/
def Obligations.ReedCommandsRunInOrder : Prop :=
  (∀ (x : Issue) (o : ReedRunOps) (s : State) (r : List Byte) (hw : Hw) (c : Nat) (op : ReedOp),
    op = .run x.queue x.place o false 0 false → Safety.offers s x 0x40 (fun r => readReedRun r = o) r hw →
    s.runCheck x o = none → cellsOf x.header.mask = [c] →
    (((s.health c).recalDue = true ∨ (s.health c).testDue = true) ∧ s.programming c = false ∨
        (∃ q p o' v k l, s.reedOps c = .run q p o' true v k :: l) → ∃ t,
      exec (.reedRun x o) s = .next t ∧ t.reedOps c = s.reedOps c ++ [op] ∧ t.cells = s.cells ∧
      t.reed.acc = s.reed.acc ∧ t.reed.cond = s.reed.cond ∧ Safety.flying s t x 0x40 1 ∧ Safety.actsInUnits s t x) ∧
    ((s.health c).recalDue = false → (s.health c).testDue = false → s.reedOps c = [] →
      s.frameReached o.frame.toNat = true →
      (∀ g, o.g0.toNat ≤ g → g < o.g0.toNat + o.groups.toNat → s.led 0x6800 0x10 (16 * c + g) = 1) → ∃ t,
      exec (.reedRun x o) s = .next t ∧ t.reedOps c = [.run x.queue x.place o true 0 false] ∧ t.cells = s.cells ∧
      t.reed.acc = s.reed.acc ∧ t.reed.cond = s.reed.cond ∧ Safety.flying s t x 0x40 1 ∧ Safety.actsInUnits s t x)) ∧
  (∀ (x : Issue) (o : ReadoutOps) (s : State) (r : List Byte) (hw : Hw) (c w : Nat) (value : Nat → Nat → F32),
    Safety.offers s x 0x41 (fun r => readReadout r = o) r hw → s.readoutCheck x o = none →
    cellsOf x.header.mask = [c] → (s.health c).recalDue = false → (s.health c).testDue = false → s.reedOps c = [] →
    w = (if o.format = 1 then 2 else 4) →
    (∀ j n, value j n = (readoutValue (s.reed.acc.get 0 (slotKey c (o.firstSlot.toNat + j) n)) o.m
      (BitVec.ofNat 16 (s.bufNat c (o.scales.toNat + 2 * n) 2))).1) →
    (o.slots.toNat = 1 ∨ w * o.columns.toNat ≤ o.outStride.toNat ∧
      Safety.off o.outBase.toNat ((o.slots.toNat - 1) * o.outStride.toNat + w * o.columns.toNat) o.scales.toNat
        (2 * o.columns.toNat)) → ∃ t, exec (.reedReadout x o) s = .next t ∧
      (∀ j n, j < o.slots.toNat → n < o.columns.toNat →
        t.bufNat c (o.outBase.toNat + j * o.outStride.toNat + w * n) w =
          if o.format = 1 then (f32ToBf16 (value j n)).1.toNat else (value j n).toNat) ∧
      Safety.onlyBuffer s t c (fun off => ∃ j, j < o.slots.toNat ∧ o.outBase.toNat + j * o.outStride.toNat ≤ off ∧
        off < o.outBase.toNat + j * o.outStride.toNat + w * o.columns.toNat) ∧
      (∀ j n, j < 64 → n < 256 → t.reed.acc.get 0 (slotKey c j n) =
        if o.flags.getLsbD 0 = true ∧ o.firstSlot.toNat ≤ j ∧ j < o.firstSlot.toNat + o.slots.toNat then 0
        else s.reed.acc.get 0 (slotKey c j n)) ∧
      t.reed.cond = s.reed.cond ∧ t.reedOps c = [] ∧ Safety.flying s t x 0x41 ∧ Safety.actsInUnits s t x) ∧
  (∀ (x : Issue) (o : ReedProgramOps) (s : State) (r : List Byte) (hw : Hw) (c i : Nat) (w : ProgramRun),
    Safety.offers s x 0x42 (fun r => readReedProgram r = o) r hw → s.programCheck x o = none →
    cellsOf x.header.mask = [c] → (s.health c).recalDue = false → (s.health c).testDue = false → s.reedOps c = [] →
    targetOutside o.group.toNat (s.programSource c o) = false → s.persists = true →
    i = 16 * c + o.group.toNat → s.led 0x6800 0x12 i + 34 ≤ 100000 → s.power.inWindow.vprg = true →
    w = s.beginPulses c o.group.toNat (s.programSource c o) → w.ended = none → ∃ t,
      exec (.reedProgram x o) s = .next t ∧ t.reedOps c = [.program x.queue x.place o (some w)] ∧
      t.led 0x6800 0x10 i = 2 ∧ t.led 0x6800 0x12 i = s.led 0x6800 0x12 i + 34 ∧ t.led 0x2000 0x20 = 1 ∧
      t.cells = s.cells ∧ t.reed.acc = s.reed.acc ∧ t.reed.cond = s.reed.cond ∧ Safety.flying s t x 0x42 1 ∧
      Safety.onlyFetched s t x ∧ Safety.samePorts s t ∧ Safety.sameServing s t ∧ Safety.leftRing s t x) ∧
  ∀ (q : QueueId) (place : Place) (pulses : List PulseIteration) (hw : Hw) (s : State) (c i : Nat) (o : ReedProgramOps)
      (w : ProgramRun) (e : PulseEnd) (f : InFlight),
    s.completes q = true → s.persists = true → Safety.clean hw → s.front.subs = [] → s.flight q place = some f →
    f.attend = none → f.onEnd = [] → s.programOf q place = some (c, o, w) → s.reedOps c = [.program q place o (some w)] →
    w = s.beginPulses c o.group.toNat w.source → targetOutside o.group.toNat w.source = false → o.group.toNat ≤ 15 →
    (State.iterations q c o.group.toNat pulses (s, w)).2.ended = some e → e.status = statusOk →
    i = 16 * c + o.group.toNat → ∃ t, exec (.commandCompletion q place pulses hw) s = .next t ∧
      t.led 0x6800 0x10 i = 1 ∧ t.led 0x6800 0x11 i = o.tag.toNat ∧
      t.led 0x6800 0x12 i = s.led 0x6800 0x12 i - 34 + (State.iterations q c o.group.toNat pulses (s, w)).2.most ∧
      (t.health c).recalDue = (s.health c).recalDue ∧ (t.health c).testDue = true ∧
      (∀ k n, k < programRows o.group.toNat → n < 256 →
        t.weight c (64 * o.group.toNat + k) n = codeWeight (sourceCode w.source k n)) ∧
      (∀ k, k < condKey c (64 * o.group.toNat) 0 false ∨
        condKey c (64 * o.group.toNat + programRows o.group.toNat) 0 false ≤ k →
        t.reed.cond.get 0 k = s.reed.cond.get 0 k) ∧ t.reedOps c = [] ∧ t.mem = s.mem

/-- What happens to an array on its own (R364, R366, R367, R370, R372, R374, R385 to R387, R396): a vector's column results
are added to their slot, and where the latest test check passed and no group of the run's vectors can clip they lie within the
bound of R370; a waiting run begins; a test check passes, makes a recalibration due, or waits for a programming; a full window
is closed; a recalibration refits the columns that failed and ends what made it due; a recognized frame edge is counted, and
one too soon is not. -/
def Obligations.ReedArraysConvertAndCheck : Prop :=
  (∀ (c : CellId) (hw : Hw) (s : State) (q : QueueId) (p : Place) (o : ReedRunOps) (v : Nat) (clipped : Bool)
      (l : List ReedOp) (a : Nat → Nat → Nat → Int),
    s.frontRuns = true → (s.health c).recalDue = false → (s.health c).testDue = false →
    s.reedOps c = .run q p o true v clipped :: l → Safety.clean hw →
    1 ≤ o.groups.toNat → o.groups.toNat ≤ 16 → v + 1 < o.vectors.toNat ∨ l = [] →
    (∀ w g n, a w g n = s.groupSum c o w g n) → ∃ t,
      exec (.reedContribution c hw) s = .next t ∧
      (∀ n, n < 256 → ∃ k : Int, t.reed.acc.get 0 (slotKey o.dest.toNat (o.firstSlot.toNat + v) n) =
          s.reed.acc.get 0 (slotKey o.dest.toNat (o.firstSlot.toNat + v) n) + BitVec.ofInt 32 k ∧
        k.natAbs ≤ 255 * o.groups.toNat ∧
        ((s.health c).passed = true → clipped = false →
          (∀ w g m, v ≤ w → w ≤ max v (o.vectors.toNat - 1) → g < o.groups.toNat → m < 256 →
            (a w g m).natAbs * 1015 ≤ 254 * 192 * 1000) →
          (192000 * k - 1000 * ((List.range o.groups.toNat).map fun g => a v g n).sum).natAbs ≤
            192000 * o.groups.toNat + 15 * ((List.range o.groups.toNat).map fun g => (a v g n).natAbs).sum)) ∧
      (∀ k, k < slotKey o.dest.toNat (o.firstSlot.toNat + v) 0 ∨ slotKey o.dest.toNat (o.firstSlot.toNat + v) 256 ≤ k →
        t.reed.acc.get 0 k = s.reed.acc.get 0 k) ∧
      t.reed.slotQueue.get none (o.dest.toNat * 64 + (o.firstSlot.toNat + v)) = some q ∧
      (v + 1 < o.vectors.toNat → (∃ k, (clipped = true → k = true) ∧ t.reedOps c = .run q p o true (v + 1) k :: l) ∧
        (t.work q).inFlight = (s.work q).inFlight) ∧
      (o.vectors.toNat ≤ v + 1 → t.reedOps c = [] ∧ (t.work q).inFlight = Safety.oneCame (s.work q).inFlight p) ∧
      t.reed.cond = s.reed.cond ∧ t.cells = s.cells ∧ Safety.sameMemory s t ∧ Safety.samePorts s t) ∧
  (∀ (c : CellId) (s : State) (q : QueueId) (p : Place) (o : ReedRunOps) (v : Nat) (k : Bool) (l : List ReedOp),
    s.frontRuns = true → (s.health c).recalDue = false → (s.health c).testDue = false →
    s.reedOps c = .run q p o false v k :: l → s.frameReached o.frame.toNat = true →
    (∀ g, o.g0.toNat ≤ g → g < o.g0.toNat + o.groups.toNat → s.led 0x6800 0x10 (16 * c + g) = 1) → ∃ t,
      exec (.reedRunBegin c) s = .next t ∧ t.reedOps c = .run q p o true v k :: l ∧ t.cells = s.cells ∧
      t.reed.acc = s.reed.acc ∧ t.reed.cond = s.reed.cond ∧ t.front = s.front ∧ Safety.sameMemory s t) ∧
  (∀ (c : CellId) (intervals : List (List Int)) (s : State), s.arraysRun = true →
    (s.programming c = false → s.reedOps c = [] → testFailure (s.trim c) intervals = none → ∃ t,
      exec (.testCheck c intervals) s = .next t ∧
      t.health c = { s.health c with testDue := false, passed := true } ∧ t.log = s.log ∧ t.ledger = s.ledger ∧
      t.reed.acc = s.reed.acc ∧ t.reed.ops = s.reed.ops ∧ t.cells = s.cells ∧ t.front = s.front) ∧
    (∀ y, s.programming c = false → testFailure (s.trim c) intervals = some y → ∃ t,
      exec (.testCheck c intervals) s = .next t ∧
      t.health c = { s.health c with testDue := false, passed := false, recalDue := true } ∧
      t.led 0x6800 0x31 c = pastTop (8 * entryWidth 0x6800 0x31) (s.led 0x6800 0x31 c + 1) ∧ t.reed.acc = s.reed.acc ∧
      t.reed.ops = s.reed.ops ∧ t.cells = s.cells ∧ t.front = s.front) ∧
    (s.programming c = true → ∃ t, exec (.testCheck c intervals) s = .next t ∧
      t.health c = { s.health c with testDue := true } ∧ t.ledger = s.ledger ∧ t.reed.ops = s.reed.ops ∧
      t.cells = s.cells ∧ t.front = s.front)) ∧
  (∀ (c : CellId) (s : State) (sums : List Nat), s.frontRuns = true → s.led 0x6800 0x21 = 1 →
    4096 ≤ (s.health c).windowVectors → sums = (s.health c).windowSums.read 0 0 256 → ∃ t,
      exec (.reedMonitorWindow c) s = .next t ∧ (t.health c).windowVectors = 0 ∧ (t.health c).windowSaturated = 0 ∧
      (t.health c).windowConversions = 0 ∧ (t.health c).windowSums = [] ∧
      (t.health c).passed = (s.health c).passed ∧
      ((s.health c).reference = none → (t.health c).reference = some sums ∧
        (t.health c).recalDue = (s.health c).recalDue) ∧
      (∀ ref, (s.health c).reference = some ref → (t.health c).reference = some ref ∧
        ((t.health c).recalDue = true ↔ (s.health c).recalDue = true ∨ ∃ x ∈ ref.zip sums,
          16 * 4096 ≤ x.1 ∧ x.1 < 16 * ((x.2 : Int) - x.1).natAbs)) ∧
      t.reed.acc = s.reed.acc ∧ t.reed.ops = s.reed.ops ∧ t.cells = s.cells ∧ t.front = s.front) ∧
  (∀ (c : CellId) (s : State) (r : RecalResult), s.arraysRun = true → (s.health c).recalDue = true →
    s.reedOps c = [] → s.recalFailure c r = none → ∃ t, exec (.recalibration c r) s = .next t ∧
      (t.health c).recalDue = false ∧ (t.health c).passed = (s.health c).passed ∧ (t.health c).reference = none ∧
      (t.health c).windowVectors = 0 ∧ (∀ n x, n < 256 →
        (meanFails (s.trim c) r.first n = false → t.trim c n = s.trim c n) ∧
        (meanFails (s.trim c) r.first n = true → s.newTrim c r.first n = some x → t.trim c n = x)) ∧
      t.led 0x6800 0x32 c = pastTop (8 * entryWidth 0x6800 0x32) (s.led 0x6800 0x32 c + 1) ∧
      t.reed.acc = s.reed.acc ∧ t.reed.cond = s.reed.cond ∧ t.cells = s.cells) ∧
  ∀ (fraction : BitVec 5) (s : State), s.frameRecognizes = true →
    ((∀ u, s.reed.lastFrame = some u → u + 1500 ≤ s.power.uclk) → ∃ t,
      exec (.frameSyncEdge fraction true) s = .next t ∧
      t.led 0x6800 0x40 = pastTop (8 * entryWidth 0x6800 0x40) (s.led 0x6800 0x40 + 1) ∧
      t.led 0x6800 0x41 = fraction.toNat + 32 * (s.time.toNat % 2 ^ 59) ∧
      (∀ k, t.counter k = if k = s.led 0x6800 0x42 then { s.counter k with
        value := BitVec.ofNat 63 (min (2 ^ 63 - 1) ((s.counter k).value.toNat + 1)) } else s.counter k) ∧
      t.reed = { s.reed with lastFrame := some s.power.uclk } ∧ t.cells = s.cells ∧ t.mem = s.mem) ∧
    (∀ u, s.reed.lastFrame = some u → s.power.uclk < u + 1500 → ∃ t, exec (.frameSyncEdge fraction true) s = .next t ∧
      t.led 0x6800 0x44 = pastTop (8 * entryWidth 0x6800 0x44) (s.led 0x6800 0x44 + 1) ∧
      t.led 0x6800 0x40 = s.led 0x6800 0x40 ∧ t.reed = s.reed ∧ t.front = s.front)

/-! ### Queues and event counters as registers -/

/-- The registers of queues and event counters, on a path that reaches them (R402 to R404, R416, R417, R429, R431,
R438): a doorbell publishes a tail, wakes a proofer, or sets DOORBELL_ERR; ENABLE starts a queue anew, and cleared it
fetches no more; RESTART takes a FAULTED queue out of FAULTED; ADVANCE and SET act with the low dword their path wrote
last. -/
def Obligations.QueueAndEventRegisters : Prop :=
  (∀ (path : AccessPath) (q : QueueId) (v : Word) (s : State), s.doorbellActs path = true →
    (s.parked q = true → ∃ t, exec (.doorbell path q v) s = .next t ∧
      t.queue q = { s.queue q with wakes := BitVec.ofNat 32 (min (2 ^ 32 - 1) ((s.queue q).wakes.toNat + v.toNat)) } ∧
      t.front.work = s.front.work ∧ Safety.sameUnits s t ∧ Safety.sameMemory s t ∧ Safety.sameDevice s t) ∧
    (∀ n, n = (v - (s.queue q).head).toNat → s.parked q = false →
      (((s.queue q).enable = true ∧ (s.queue q).producerEnqueue = false ∧
        ((s.queue q).tail - (s.queue q).head).toNat ≤ n ∧ n ≤ (s.queue q).ringSize) → ∃ t,
        exec (.doorbell path q v) s = .next t ∧ (t.queue q).tail = v ∧ (t.queue q).head = (s.queue q).head ∧
        (t.queue q).doorbellErr = (s.queue q).doorbellErr ∧ Safety.sameUnits s t ∧ Safety.sameMemory s t ∧
        Safety.sameDevice s t) ∧
      (¬ ((s.queue q).enable = true ∧ (s.queue q).producerEnqueue = false ∧
        ((s.queue q).tail - (s.queue q).head).toNat ≤ n ∧ n ≤ (s.queue q).ringSize) → ∃ t,
        exec (.doorbell path q v) s = .next t ∧ t.queue q = { s.queue q with doorbellErr := true } ∧
        t.front.work = s.front.work ∧ Safety.sameUnits s t ∧ Safety.sameMemory s t ∧ Safety.sameDevice s t))) ∧
  (∀ (path : AccessPath) (q : QueueId) (v : Word) (s : State), s.reaches path = true →
    ((s.queue q).enable = false → ∃ t, exec (.queueEnable path q v) s = .next t ∧
      (t.queue q).producerEnqueue = v.getLsbD 1 ∧ (t.queue q).ringHost = v.getLsbD 2 ∧
      (t.queue q).ringBase = (s.queue q).ringBase ∧ (t.queue q).enable = v.getLsbD 0 ∧
      (v.getLsbD 0 = true → (t.queue q).head = 0 ∧ (t.queue q).tail = 0 ∧ (t.queue q).wakes = 0 ∧
        (t.queue q).state = .idle) ∧
      (v.getLsbD 0 = false → (t.queue q).head = (s.queue q).head ∧ (t.queue q).state = (s.queue q).state) ∧
      Safety.sameUnits s t ∧ Safety.sameMemory s t ∧ Safety.sameDevice s t) ∧
    ((s.queue q).enable = true → v.getLsbD 0 = false → ∃ t, exec (.queueEnable path q v) s = .next t ∧
      (t.queue q).enable = false ∧ (t.queue q).ringHost = (s.queue q).ringHost ∧ t.mayFetch q = false ∧
      ((s.queue q).state ≠ .resetting → (s.work q).quiet = true → (t.queue q).state = .disabled) ∧
      (t.work q).inFlight = (s.work q).inFlight ∧ Safety.sameUnits s t ∧ Safety.sameMemory s t ∧
      Safety.sameDevice s t) ∧
    ((s.queue q).enable = true → v.getLsbD 0 = true → exec (.queueEnable path q v) s = .next s) ∧
    (v.getLsbD 0 = true → (s.queue q).state = .faulted → ∃ t, exec (.restart path q v) s = .next t ∧
      (t.queue q).state ≠ .faulted ∧ (t.queue q).head = (s.queue q).head ∧
      (t.queue q).faultRecord = (s.queue q).faultRecord ∧ t.front.work = s.front.work ∧ Safety.sameUnits s t ∧
      Safety.sameMemory s t ∧ Safety.sameDevice s t) ∧
    (v.getLsbD 0 = false ∨ (s.queue q).state ≠ .faulted → exec (.restart path q v) s = .next s)) ∧
  (∀ (path : AccessPath) (c : Fin 4096) (low : Word) (s t : State) (high : Word), s.reaches path = true →
    (exec (.eventAdvanceRegister path c (some low) none) s = .next t →
      (∀ k, t.counter k = s.counter k) ∧ ∃ u, exec (.eventAdvanceRegister path c none (some high)) t = .next u ∧
        (∀ k, u.counter k = if k = c.val then
          ⟨BitVec.ofNat 63 (min (2 ^ 63 - 1) ((s.counter k).value.toNat + (low.toNat + high.toNat * 2 ^ 32))),
            (s.counter k).err⟩ else s.counter k) ∧
        Safety.sameUnits s u ∧ Safety.sameMemory s u ∧ Safety.sameDevice s u ∧ u.front.queues = s.front.queues) ∧
    (exec (.eventSetRegister path c (some low) none) s = .next t →
      (∀ k, t.counter k = s.counter k) ∧ ∃ u, exec (.eventSetRegister path c none (some high)) t = .next u ∧
        (∀ k, u.counter k = if k = c.val then ⟨BitVec.ofNat 63 (low.toNat + high.toNat * 2 ^ 32), false⟩
          else s.counter k) ∧
        Safety.sameUnits s u ∧ Safety.sameMemory s u ∧ Safety.sameDevice s u ∧ u.front.queues = s.front.queues)) ∧
  ∀ (path : AccessPath) (c : Fin 4096) (low : Word) (s : State), s.reaches path = true →
    (∃ t, exec (.eventAdvanceRegister path c (some low) none) s = .next t) ∧
    ∃ t, exec (.eventSetRegister path c (some low) none) s = .next t

/-- How a command in flight and a queue end (R27, R405, R406, R431, R432, R434, R436, R439, R677): where no command waits in a
sub-queue and the hardware meets no error, a command for which nothing is awaited completes, with what it writes at its end;
a slice of the Oven or of a cell sequencer ends; a watched queue without progress is counted, and declared stalled after the
set number of periods; the reset of a guilty queue, with no operation of an array and no other queue's command in a sub-queue,
discards what it had in hand, loses its steps, clears its lanes and rows, and makes it FAULTED at its TAIL, leaving every
other queue as it is; one still RESETTING when the time is up halts the device. -/
def Obligations.CommandsAndQueuesEnd : Prop :=
  (∀ (q : QueueId) (place : Place) (pulses : List PulseIteration) (hw : Hw) (s : State) (f : InFlight) (i : Nat),
    s.completes q = true → place = .ring i → s.programOf q place = none →
    (∀ c o rest, c < 16 → s.reedOps c ≠ .readout q place o :: rest) → s.front.subs = [] → Safety.clean hw →
    Safety.sound s → s.flight q place = some f → f.waitsFor = 0 → f.fetches = [] → f.attend = none → ∃ t,
      exec (.commandCompletion q place pulses hw) s = .next t ∧
      (t.work q).inFlight = ((s.work q).inFlight.filter fun x => x.place != place) ∧
      (t.queue q).completed = advanceCnt (s.queue q).completed 1 ∧
      (∀ c, t.counter c = Safety.signalled f.header c (s.counter c)) ∧ (t.queue q).head = (s.queue q).head ∧
      t.mem = (f.onEnd.foldl (fun u w => u.memWrite w.1 w.2) s).mem ∧ (f.onEnd = [] → Safety.sameMemory s t) ∧
      Safety.sameUnits s t ∧ Safety.sameDevice s t ∧ Safety.sameServing s t) ∧
  (∀ s : State, s.frontRuns = true →
    exec (.timeSliceExpiry .oven) s = .next { s with front := { s.front with sliceOver := true } } ∧
    ∀ c, exec (.timeSliceExpiry (.sequencer c)) s =
      .next (s.setSequencer c { s.sequencer c with sliceOver := true })) ∧
  (∀ (s : State) (p : QueueId) (still : QueueId → Prop), s.frontRuns = true →
    (∀ q, still q ↔ s.busy q = true ∧ (s.work q).watchProgress = (s.queue q).progress) →
    (∀ q : QueueId, q ≠ p → (s.work q).watchPeriods + 1 < s.led 0x6000 0x12) → 0 < s.led 0x6000 0x12 →
    s.led 0x6000 0x13 = 0 → ∃ t, exec .watchPeriod s = .next t ∧
      (∀ q : QueueId, q ≠ p → t.queue q = s.queue q ∧ (t.work q).watchProgress = (s.queue q).progress ∧
        (still q → (t.work q).watchPeriods = (s.work q).watchPeriods + 1) ∧
        (¬ still q → (t.work q).watchPeriods = 0)) ∧
      (still p → s.led 0x6000 0x12 ≤ (s.work p).watchPeriods + 1 → t.queue p = { s.queue p with stalled := true } ∧
        t.led 0x6000 0x32 = pastTop (8 * entryWidth 0x6000 0x32) (s.led 0x6000 0x32 + 1)) ∧
      (¬ still p → t.queue p = s.queue p ∧ (t.work p).watchPeriods = 0 ∧ t.led 0x6000 0x32 = s.led 0x6000 0x32)) ∧
  (∀ (q : QueueId) (hw : Hw) (s : State), s.frontRuns = true → (s.queue q).state = .resetting → s.reed.ops = [] →
    (∀ c p, p ≠ q → s.subQueue c p = []) → Safety.clean hw → ∃ t,
    exec (.guiltyQueueReset q hw) s = .next t ∧ (t.queue q).state = .faulted ∧ (t.queue q).head = (s.queue q).tail ∧
    (t.queue q).faultRecord = (s.queue q).faultRecord ∧ (t.work q).inFlight = [] ∧ (t.work q).bakes = [] ∧
    (t.work q).waits = [] ∧ (t.work q).proofer = none ∧
    (∀ c lane col, c < 16 → lane < 256 → col < 512 → t.accWord c lane col =
      if (s.queue q).laneFirst.toNat ≤ lane ∧ lane < (s.queue q).laneFirst.toNat + (s.queue q).laneCount.toNat then 0
      else s.accWord c lane col) ∧
    (∀ c row, c < 16 → row < 4096 → t.statRow c row =
      if 16 * (s.queue q).laneFirst.toNat ≤ row ∧
        row < 16 * ((s.queue q).laneFirst.toNat + (s.queue q).laneCount.toNat) then StatRow.blank
      else s.statRow c row) ∧
    (∀ c, c < 4096 → (t.counter c).value = (s.counter c).value ∧ ((t.counter c).err = true ↔ (s.counter c).err = true ∨
      (s.queue q).eventBase.toNat ≤ c ∧ c < (s.queue q).eventBase.toNat + (s.queue q).eventCount.toNat)) ∧
    (∀ p : QueueId, p ≠ q → t.queue p = s.queue p ∧ t.work p = s.work p) ∧ t.cells.buf = s.cells.buf ∧
    (∀ c p, t.subQueue c p = []) ∧
    t.runtime = { s.runtime with steps := s.runtime.steps.map fun u =>
      if u.queue = q ∧ u.lost = none then { u with lost := some (s.queue q).faultRecord } else u } ∧
    Safety.sameMemory s t ∧ t.serve = s.serve ∧ t.tree = s.tree ∧ t.life = s.life) ∧
  ∀ (q : QueueId) (u : FrontEndUnit) (s : State), s.frontRuns = true → (s.queue q).state = .resetting → s.serving = true →
    ∃ t, exec (.resetQuiesceTimeout q u) s = .next t ∧ t = { s with life := { s.life with causes := s.life.causes ++
      [⟨0x1301, frontEndNumber u, [byte q, 0, 0, 0] ++ (s.queue q).faultRecord.take 4⟩] } }

/-! ### Serving -/

/-- The serving registers, on a path that reaches them (R456 to R460, R466, R468): RING_ENABLE starts rings whose
REQ_TAIL and TOK_HEAD are 0 and stops them; REQ_TAIL and TOK_HEAD take a value within their ring and else set their
error flag; a user queue is granted free lanes and counters or refused; a model is registered or forgotten; a held
record is written with its stamp, and a signal is due when its interval ends. -/
def Obligations.ServingRegisters : Prop :=
  (∀ (path : AccessPath) (v : Word) (s : State), s.reachesServing path = true →
    (s.serve.enable = false → v.getLsbD 0 = true → s.serve.reqTail = 0 → s.serve.tokHead = 0 →
      exec (.ringEnableWrite path v) s = .next { s with serve := { s.serve with
        enable := true, reqInHost := v.getLsbD 1, tokInHost := v.getLsbD 2, reqHead := 0, tokTail := 0 } }) ∧
    (s.serve.enable = false → v.getLsbD 0 = true → s.serve.reqTail ≠ 0 ∨ s.serve.tokHead ≠ 0 →
      exec (.ringEnableWrite path v) s = .next { s with serve := { s.serve with reqTailErr := true } }) ∧
    (s.serve.enable = true → v.getLsbD 0 = false →
      exec (.ringEnableWrite path v) s = .next { s with serve := { s.serve with enable := false } }) ∧
    (s.serve.enable = true → (v - s.serve.tokHead).toNat ≤ (s.serve.tokTail - s.serve.tokHead).toNat →
      exec (.tokHeadWrite path v) s = .next { s with serve := { s.serve with tokHead := v } }) ∧
    (s.serve.enable = true → (s.serve.tokTail - s.serve.tokHead).toNat < (v - s.serve.tokHead).toNat →
      exec (.tokHeadWrite path v) s = .next { s with serve := { s.serve with tokHeadErr := true } })) ∧
  (∀ (path : AccessPath) (v : Word) (s : State) (n : Nat), s.doorbellActs path = true → s.serve.enable = true →
    n = (v - s.serve.reqHead).toNat →
    ((s.serve.reqTail - s.serve.reqHead).toNat ≤ n ∧ n ≤ s.serve.reqSize →
      exec (.reqTailWrite path v) s =
        .next (({ s with serve := { s.serve with reqTail := v } } : State).interruptCores 65)) ∧
    (n < (s.serve.reqTail - s.serve.reqHead).toNat ∨ s.serve.reqSize < n →
      exec (.reqTailWrite path v) s = .next { s with serve := { s.serve with reqTailErr := true } })) ∧
  (∀ (path : AccessPath) (v : Word) (s : State) (q lanes counters : Nat), s.reachesServing path = true →
    s.runtimeRuns = true → q = v.toNat % 64 → lanes = v.toNat / 256 % 256 → counters = v.toNat / 65536 →
    (8 ≤ q → counters ≤ 4095 → changeable (s.queue q).state = true → s.laneSpans q lanes ≠ [] →
      s.counterSpans q counters ≠ [] → ∃ t first base, exec (.userqRequest path v) s = .next t ∧
        first ∈ s.laneSpans q lanes ∧ base ∈ s.counterSpans q counters ∧
        t.queue q = { s.queue q with
          laneFirst := BitVec.ofNat 8 first, laneCount := BitVec.ofNat 9 lanes
          eventBase := BitVec.ofNat 12 base, eventCount := BitVec.ofNat 13 counters } ∧
        t.serve = { s.serve with userqResult := BitVec.ofNat 32 (1 + first * 2 ^ 8 + base * 2 ^ 16) } ∧
        t.runtime = s.runtime ∧ t.front.work = s.front.work ∧ Safety.sameUnits s t ∧ Safety.sameMemory s t ∧
        Safety.sameDevice s t) ∧
    (q < 8 ∨ 4095 < counters ∨ s.laneSpans q lanes = [] ∨ s.counterSpans q counters = [] → ∃ t,
      exec (.userqRequest path v) s = .next t ∧ t.serve = { s.serve with userqResult := 3 } ∧ t.front = s.front ∧
      t.runtime = s.runtime ∧ Safety.sameUnits s t ∧ Safety.sameMemory s t ∧ Safety.sameDevice s t)) ∧
  (∀ (path : AccessPath) (finding : Byte) (s : State) (m : Model), s.reachesServing path = true → s.runtimeRuns = true →
    s.manifest = some m →
    (s.life.state = .ready → s.registerCode m finding.toNat = 0 → ∃ t, exec (.register path finding) s = .next t ∧
      t.runtime = { s.runtime with models := s.runtime.models ++ [m] } ∧
      t.serve.modelStatus = BitVec.ofNat 32 (2 + (s.runtime.models.length + 1) % 256 * 2 ^ 8) ∧ t.tree = s.tree ∧
      t.front = s.front ∧ Safety.sameUnits s t ∧ Safety.sameMemory s t ∧ Safety.sameDevice s t) ∧
    (s.life.state = .ready → s.registerCode m finding.toNat ≠ 0 → ∃ t, exec (.register path finding) s = .next t ∧
      t.runtime = s.runtime ∧ t.serve.modelStatus = BitVec.ofNat 32 (3 + s.runtime.models.length % 256 * 2 ^ 8 +
        s.registerCode m finding.toNat * 2 ^ 16) ∧ t.tree = s.tree ∧ t.front = s.front) ∧
    (m ∈ s.runtime.models → s.modelInUse m.tag = false → ∃ t, exec (.unregister path) s = .next t ∧
      t.runtime = { s.runtime with models := s.runtime.models.filter fun x => x.tag != m.tag } ∧
      t.serve.modelStatus = BitVec.ofNat 32 (2 + (s.runtime.models.filter fun x => x.tag != m.tag).length % 256 * 2 ^ 8) ∧
      t.tree = s.tree ∧ t.front = s.front ∧ Safety.sameUnits s t ∧ Safety.sameMemory s t ∧ Safety.sameDevice s t)) ∧
  (∀ (s : State) (r : TokenRec) (a i : Nat), s.runtimeRuns = true → s.runtime.held = [r] → r.encoder = none →
    s.serve.enable = true → s.serve.tokInHost = false → i = s.serve.tokTail.toNat →
    (s.serve.tokTail - s.serve.tokHead).toNat < s.serve.tokSize → s.target (s.serve.tokAddress i) 32 = .here a →
    s.serve.tokAddress i < 2 ^ 63 → Safety.sound s → ∃ t, exec .heldTokenWrite s = .next t ∧
      t.memRead a 32 = tokenBytes r ((i / s.serve.tokSize + 1) % 256) ∧
      (∀ b, b < a ∨ a + 32 ≤ b → t.memRead b 1 = s.memRead b 1) ∧ t.serve.tokTail = s.serve.tokTail + 1 ∧
      t.runtime.held = [] ∧ t.runtime.sequences = s.runtime.sequences ∧ Safety.sameUnits s t ∧ t.front = s.front ∧
      Safety.sameDevice s t) ∧
  ∀ s : State, s.runtimeRuns = true → s.runtime.signalDue = true → ∃ t, exec .tokenInterruptInterval s = .next t ∧
    t.runtime = { s.runtime with lastSignal := some s.power.uclk, signalDue := false } ∧ t.serve = s.serve ∧
    t.front = s.front ∧ Safety.sameUnits s t ∧ Safety.sameMemory s t ∧ Safety.sameDevice s t

/-- The intake of requests and the runtime's failure (R454, R459, R464, R468, R473, R474, R677): a GENERATE record that
passes every check waits for an assembly, and one that fails a check ends with a REJECTED record that names it; a CANCEL
waits for an assembly; FAILED, or a HEARTBEAT that stands still, is a cause of a halt. -/
def Obligations.RequestsAreTakenIn : Prop :=
  (∀ (hw : Hw) (s x y : State) (r : List Byte) (l : List HostReply) (m : Model) (d : RequestData),
    s.nextRecordOf hw = (x, some r, l) → reqField r 4 1 ≠ 2 →
    (s.runtime.models.find? fun m => m.tag == reqField r 8 4) = some m → x.rejectEarly r (some m) = 0 →
    x.readRequest hw r m l = (y, some d) →
    (s.rejectLate r m d = 0 → (requestOf r m d).promptLength ≠ 65536 → ∃ t,
      exec (.generate hw) s = .next t ∧
      t.runtime.intake = s.runtime.intake ++ [.request (requestOf r m d)] ∧
      t.serve = { s.serve with reqHead := s.serve.reqHead + 1 } ∧ t.runtime.held = s.runtime.held ∧
      t.runtime.sequences = s.runtime.sequences ∧ t.runtime.steps = s.runtime.steps ∧ Safety.sameUnits s t ∧
      t.front = s.front) ∧
    (s.rejectLate r m d ≠ 0 → s.tokenSlot = false → ∃ t, exec (.generate hw) s = .next t ∧
      t.runtime.held = s.runtime.held ++ [⟨reqField r 0 4, none, reqField r 12 4 +
        (if bit (reqField r 6 2) flagImage || bit (reqField r 6 2) flagEncoded then m.imageTokens else 0),
        0x10, 0, 1, 0, s.rejectLate r m d, none⟩] ∧
      t.serve = { s.serve with reqHead := s.serve.reqHead + 1 } ∧ t.runtime.intake = s.runtime.intake ∧
      t.runtime.sequences = s.runtime.sequences ∧ Safety.sameUnits s t ∧ t.front = s.front)) ∧
  (∀ (hw : Hw) (s x : State) (r : List Byte) (l : List HostReply) (m : Option Model),
    s.nextRecordOf hw = (x, some r, l) → reqField r 4 1 ≠ 2 →
    (s.runtime.models.find? fun m => m.tag == reqField r 8 4) = m → s.rejectEarly r m ≠ 0 → s.tokenSlot = false → ∃ t,
      exec (.generate hw) s = .next t ∧
      t.runtime.held = s.runtime.held ++ [⟨reqField r 0 4, none, reqField r 12 4 +
        (if bit (reqField r 6 2) flagImage || bit (reqField r 6 2) flagEncoded then (m.map Model.imageTokens).getD 0 else 0),
        0x10, 0, 1, 0, s.rejectEarly r m, none⟩] ∧
      t.serve = { s.serve with reqHead := s.serve.reqHead + 1 } ∧ t.runtime.intake = s.runtime.intake ∧
      t.runtime.sequences = s.runtime.sequences ∧ t.mem = x.mem ∧ Safety.sameUnits s t ∧ t.front = s.front) ∧
  (∀ (hw : Hw) (s x : State) (r : List Byte) (l : List HostReply), s.nextRecordOf hw = (x, some r, l) →
    reqField r 4 1 = 2 → ∃ t, exec (.cancel hw) s = .next t ∧
      t.runtime = { s.runtime with intake := s.runtime.intake ++ [.cancel (reqField r 76 4)] } ∧
      t.serve = { s.serve with reqHead := s.serve.reqHead + 1 } ∧ t.tree = s.tree ∧ t.mem = x.mem ∧
      Safety.sameUnits s t ∧ t.front = s.front) ∧
  (∀ (error : Half) (s : State), s.serving = true → ∃ t, exec (.runtimeFailed error) s = .next t ∧
    t.serve = { s.serve with status := 2, error := error } ∧
    t.life = { s.life with causes := s.life.causes ++
      [⟨0x1401, 0, toBytes 2 error.toNat ++ [0, 0] ++ toBytes 4 s.serve.heartbeat.toNat⟩] } ∧
    t.runtime = s.runtime ∧ t.front = s.front ∧ Safety.sameUnits s t ∧ Safety.sameMemory s t) ∧
  ∀ s : State, s.serving = true → s.runtimeRuns = true → ∃ t, exec .runtimeWatchdogExpiry s = .next t ∧
    t = { s with life := { s.life with causes := s.life.causes ++
      [⟨0x1401, 0, toBytes 2 s.serve.error.toNat ++ [0, 0] ++ toBytes 4 s.serve.heartbeat.toNat⟩] } }

/-- Assembly, sampling and lending (R20, R21, R27, R28, R285, R287, R300, R330, R336, R347, R349, R415, R472, R473, R475,
R476). Where no cell is short of frames, an assembly of one model does this: a request without flags that its pool can supply
is admitted with its pages and a reserved one, and its page list is written; a sequence whose prompt is computed goes into a
decode step that the runtime's plan fits, in the first lane that no queue was granted, with its query table in memory, the
plan's bakes in the ring and the doorbell rung; one whose prompt is not computed, and that copies no page, goes into a prefill
of its own on lane 0 (log entry 147). A sampled token joins its sequence and its record is produced, the last one ending it; a
sequence that lost a page on a peer ends with ABORT_REMOTE and no token; a lost step ends the sequence at fault alone. Frames
lent to peers are mapped in every cell of every pool. -/
def Obligations.StepsAreAssembledAndSampled : Prop :=
  (∀ (model : Word) (plan : AssemblyPlan) (s : State) (r : ServeRequest) (d : Pool) (y : SequencePlace) (own : Nat),
    s.assembles = true → Safety.sound s → Safety.roomy s → s.runtime.intake = [.request r] → s.runtime.sequences = [] →
    s.pool r.model.pool = some d → r.flags = 0 → own = (r.promptLength + d.size - 1) / d.size → d.cells ≠ [] →
    (∀ c ∈ d.cells, (s.mappedIn r.model.pool c).length + own + 1 ≤ min d.frames d.names) →
    plan.places.find? (fun y => y.request.toNat == r.id) = some y → s.placeFits d y false = true → plan.prefills = [] →
    plan.decode = none → ∃ t, exec (.assembly model plan) s = .next t ∧
      t.runtime.sequences = [⟨0, r, y, 0, none, [], false, false, s.tree.assembly + 1, false, false⟩] ∧
      t.runtime.intake = [] ∧ t.runtime.frames.length = s.runtime.frames.length + own + 1 ∧
      (∃ reserved pages, pages.length = own ∧
        t.memRead y.list (64 + 4 * d.capacity) = s.listBytes d r y 0 0 reserved pages) ∧
      t.runtime.steps = s.runtime.steps ∧ t.tree.assembly = s.tree.assembly + 1 ∧ Safety.sameUnits s t ∧
      t.front = s.front) ∧
  (∀ (model : Word) (plan : AssemblyPlan) (s : State) (m : Model) (d : Pool) (x : Sequence) (y : StepPlan)
      (pn lane bucket : Nat) (table : QueryTable), s.assembles = true → Safety.sound s → Safety.roomy s →
    s.runtime.intake = [] → s.runtime.sequences = [x] → x.id < 4096 → x.ended = false → x.prefilled = true →
    x.inserted = true → s.reservedPage x = some pn → s.inStep x.id = false → s.holdsRecord x.request.id = false →
    s.runtime.models.find? (fun m => m.tag == model.toNat) = some m → x.request.model.tag = model.toNat →
    s.pool m.pool = some d → (countFrom 0 256).find? (fun l => !s.laneGranted l) = some lane → plan.prefills = [] →
    plan.decode = some y → bucket = x.bucket d.size → bucket < 12 →
    table = ⟨y.tables.getD bucket 0, [(x, x.position - 1, lane, 0)]⟩ → s.planFits y d m.pool [table] = true →
    s.postable y.queue y.bakes.length = true → ∃ t, exec (.assembly model plan) s = .next t ∧
      t.runtime.steps = s.runtime.steps ++ [⟨s.runtime.nextStep, false, [(lane, x.id)], y.queue, y.counter.toNat,
        (s.counter y.counter.toNat).value.toNat + 1, none⟩] ∧
      t.runtime.sequences = [{ x with deferred := false, lastStep := s.tree.assembly + 1 }] ∧
      (t.queue y.queue).tail = (s.queue y.queue).tail + BitVec.ofNat 32 y.bakes.length ∧
      (∀ k b, (s.bakeRecords y.counter y.bakes)[k]? = some b → ∃ a,
        s.cacheableAt ((s.queue y.queue).recordAddress ((s.queue y.queue).tail.toNat + k)) 64 = some a ∧
          t.memRead a 64 = b) ∧
      ((∀ k a, s.cacheableAt ((s.queue y.queue).recordAddress k) 64 = some a → Safety.off table.addr 16 a 64) →
        t.memRead table.addr 16 = s.tableBytes table) ∧
      (∀ b, b < 12 → t.led 0x5400 0x30 b = if b = bucket then 1 else 0) ∧
      t.tree.assembly = s.tree.assembly + 1 ∧ Safety.sameUnits s t) ∧
  (∀ (model : Word) (plan : AssemblyPlan) (s : State) (m : Model) (d : Pool) (x : Sequence) (z : PrefillPlan),
    s.assembles = true → Safety.sound s → Safety.roomy s → s.runtime.intake = [] → s.runtime.sequences = [x] →
    x.id < 4096 → x.ended = false → x.prefilled = false → x.copy = none → s.inStep x.id = false →
    s.runtime.models.find? (fun m => m.tag == model.toNat) = some m → x.request.model.tag = model.toNat →
    s.pool m.pool = some d → plan.decode = none → plan.prefills = [z] → z.request.toNat = x.request.id →
    s.appendsCover d x ((z.step.bakes.map s.bakeNodes).flatMap Prod.fst) = true →
    s.planFits z.step d x.request.model.pool (x.prefillTables z.step.tables) = true →
    s.postable z.step.queue z.step.bakes.length = true → ∃ t, exec (.assembly model plan) s = .next t ∧
      t.runtime.steps = s.runtime.steps ++ [⟨s.runtime.nextStep, true, [(0, x.id)], z.step.queue, z.step.counter.toNat,
        (s.counter z.step.counter.toNat).value.toNat + 1, none⟩] ∧
      t.runtime.sequences = [x] ∧
      (t.queue z.step.queue).tail = (s.queue z.step.queue).tail + BitVec.ofNat 32 z.step.bakes.length ∧
      t.tree.assembly = s.tree.assembly + 1 ∧ Safety.sameUnits s t) ∧
  (∀ (number : Nat) (s : State) (p : StepRun) (lane : Nat) (x : Sequence) (y : LaneResult), s.runtimeRuns = true →
    s.runtime.steps.find? (fun t => t.number == number) = some p → p.lanes = [(lane, x.id)] →
    s.sequence? x.id = some x → x.ended = false → x.copy = none → s.stepDone p = true → s.resultsFit p [y] = true →
    s.tokenSlot = false →
    (∀ e, s.goneDevice x = some e → ∃ t, exec (.sampling number (.sampled [y])) s = .next t ∧
      t.sequence? x.id = some { x with prefilled := true, ended := true } ∧
      t.runtime.held = s.runtime.held ++
        [⟨x.request.id, none, x.position, 0x11, 0, 1, 0, e, s.encoderOutput x.request y.encoder⟩] ∧
      t.runtime.steps = s.runtime.steps.filter (fun u => u.number != number) ∧ t.mem = s.mem ∧
      Safety.sameUnits s t ∧ t.front = s.front) ∧
    (∀ (k : Nat) (gen : List Nat), s.goneDevice x = none →
      (∀ free, sampleToken (y.logits.flatMap s.spanLogits) x.position x.request.seed x.request.temperature
        x.request.topP x.request.penalty x.request.topK (x.request.prompt ++ x.generated) free = some k) →
      gen = x.generated ++ [k] → ∃ t rec, exec (.sampling number (.sampled [y])) s = .next t ∧
        t.sequence? x.id = some { x with
          prefilled := true, generated := gen, request := { x.request with output := none }
          ended := (stopReason x.request x.position gen).isSome } ∧
        t.runtime.held = s.runtime.held ++ [rec] ∧ rec.request = x.request.id ∧ rec.token = some k ∧
        rec.position = x.position ∧ rec.reason = ((stopReason x.request x.position gen).map Prod.fst).getD 0 ∧
        rec.novelty = s.novelty x ∧ rec.encoder = s.encoderOutput x.request y.encoder ∧
        t.runtime.steps = s.runtime.steps.filter (fun u => u.number != number) ∧ t.mem = s.mem ∧
        Safety.sameUnits s t ∧ t.front = s.front)) ∧
  (∀ (number : Nat) (s : State) (p : StepRun) (record : List Byte) (lane : Option Nat), s.runtimeRuns = true →
    s.runtime.steps.find? (fun t => t.number == number) = some p → p.lost = some record →
    (s.culprit p record lane = none → ∃ t, exec (.sampling number (.lost lane)) s = .next t ∧
      t = { s with runtime := { s.runtime with steps := s.runtime.steps.filter fun u => u.number != number } }) ∧
    ∀ x, s.culprit p record lane = some x → x.ended = false → s.tokenSlot = false → ∃ t,
      exec (.sampling number (.lost lane)) s = .next t ∧
      t.runtime.sequences = (s.runtime.sequences.map fun u => if u.id = x.id then { x with ended := true } else u) ∧
      t.runtime.held = s.runtime.held ++ [x.lastRecord 0x12 (imageNat record 0 8)] ∧
      t.runtime.steps = s.runtime.steps.filter (fun u => u.number != number) ∧ t.mem = s.mem ∧
      Safety.sameUnits s t ∧ t.front = s.front) ∧
  ∀ (list : DWord) (s : State) (total : Nat), s.runtimeRuns = true → s.life.state = .ready → s.led 0x1100 0x11 = 1 →
    total = (((List.range 8).filter fun e => e != s.uhleg.devId.toNat).map fun e => s.led 0x6400 0x12 e).sum →
    (∀ p d c, s.pool p = some d → c ∈ d.cells → (s.mappedIn p c).length + total ≤ min d.frames d.names) → ∃ t,
      exec (.peerLease list) s = .next t ∧ s.runtime.frames <+: t.runtime.frames ∧
      (∀ p d c, s.pool p = some d → c ∈ d.cells → (t.mappedIn p c).length = (s.mappedIn p c).length + total) ∧
      (∀ p c, s.pool p = none → t.mappedIn p c = s.mappedIn p c) ∧ t.serve = s.serve ∧ t.tree = s.tree ∧
      t.runtime.sequences = s.runtime.sequences ∧ Safety.sameUnits s t ∧ t.front = s.front

/-! ### Aelis -/

/-- A port's way up and down (R499, R502, R516, R517, R519 to R522, R525, R529): an attempt fails with its code or sends
IDENT and awaits the peer's; the census brings the port UP or finds a mismatch, and where no live sequence has a page on the
peer memory stays (log entry 152); a loss, a GOODBYE or a fifth replay brings it DOWN, with its cause, and discards what it
kept; when the hold is over it trains or rests; SKIP restores credits, and a replay leaves the buffer as it is. No other port
is touched. -/
def Obligations.AelisPortsComeAndGo : Prop :=
  (∀ (p : PortId) (run : TrainingRun) (s : State), s.trains p = true →
    (s.port p).state ≠ .up → (s.port p).state ≠ .down →
    (failureCode run ≠ 0 → ∃ t, exec (.portTrainingAttempt p run) s = .next t ∧
      t.port p = { Port.blank with state := .training } ∧ t.link p = { PortWork.blank with failed := failureCode run } ∧
      t.led 0x7000 0x24 p = failureCode run ∧ (∀ n, n ≠ p.val → t.port n = s.port n ∧ t.link n = s.link n) ∧
      Safety.sameUnits s t ∧ Safety.sameMemory s t ∧ t.front = s.front) ∧
    (failureCode run = 0 → ∃ t, exec (.portTrainingAttempt p run) s = .next t ∧
      (t.port p).state = .training ∧ (t.port p).awaiting = true ∧ (t.port p).replay = [] ∧
      (∃ n bytes, (∀ o ∈ frameLight p n bytes, o ∈ t.out) ∧ (bytes.drop 4).take 13 = s.identBody p) ∧
      (∀ n, n ≠ p.val → t.port n = s.port n ∧ t.link n = s.link n) ∧
      Safety.sameUnits s t ∧ Safety.sameMemory s t ∧ t.front = s.front)) ∧
  (∀ (p : PortId) (micros : Nat) (s : State) (b : List Byte) (l : List (List Byte)), (s.link p).control = b :: l →
    imageNat b 0 1 = 2 → (s.port p).state = .training → (s.port p).awaiting = true → s.trains p = true →
    (s.census p b = true → ∃ t, exec (.ident p micros) s = .next t ∧
      t.port p = { s.port p with state := .up, awaiting := false } ∧
      t.link p = { s.link p with control := l, failed := 0 } ∧ t.led 0x7000 0x03 p = imageNat b 4 8 ∧
      t.led 0x7000 0x04 p = pastTop (8 * entryWidth 0x7000 0x04) (s.led 0x7000 0x04 p + 1) ∧
      (∀ n, n ≠ p.val → t.port n = s.port n ∧ t.link n = s.link n) ∧ Safety.sameUnits s t ∧
      ((∀ x ∈ s.liveSequences, ∀ pn ∈ s.pagesOf x, pageDevice pn ≠ s.deviceAt p) → Safety.sameMemory s t) ∧
      t.front = s.front) ∧
    (s.census p b = false → ∃ t, exec (.ident p micros) s = .next t ∧ t.port p = { Port.blank with state := .mismatch } ∧
      t.led 0x7000 0x24 p = 8 ∧ (∀ n, n ≠ p.val → t.port n = s.port n ∧ t.link n = s.link n) ∧
      Safety.sameUnits s t ∧ Safety.sameMemory s t ∧ t.front = s.front)) ∧
  (∀ (p : PortId) (s : State) (c : Instr) (cause : Nat), (s.port p).state = .up →
    (c = .linkDown p .los ∧ cause = 1 ∨ c = .linkDown p .laser ∧ cause = 6 ∨
      c = .goodbye p ∧ cause = 4 ∧ (∃ b l, (s.link p).control = b :: l ∧ imageNat b 0 1 = 3) ∨
      c = .replayTimeout p ∧ cause = 3 ∧ (s.port p).replay ≠ [] ∧ 4 ≤ (s.port p).attempts) → ∃ t, exec c s = .next t ∧
      t.port p = { Port.blank with state := .down } ∧ t.link p = .blank ∧ t.led 0x7000 0x23 p = cause ∧
      t.led 0x7000 0x27 p = pastTop (8 * entryWidth 0x7000 0x27) (s.led 0x7000 0x27 p + 1) ∧
      ((s.link p).outstanding.length + (s.link p).queue.length ≠ 0 → t.led 0x7000 0x25 p =
        pastTop (8 * entryWidth 0x7000 0x25)
          (s.led 0x7000 0x25 p + ((s.link p).outstanding.length + (s.link p).queue.length))) ∧
      ∀ n, n ≠ p.val → t.port n = s.port n ∧ t.link n = s.link n) ∧
  (∀ (p : PortId) (s : State), (s.port p).state = .down → ∃ t, exec (.linkDownHoldExpiry p) s = .next t ∧
    t.port p = { Port.blank with state := if s.trains p then .training else if bit (s.led 0x7000 0x02) p then .dark
      else .disabled } ∧ (∀ n, n ≠ p.val → t.port n = s.port n) ∧ t = { s with ports := t.ports }) ∧
  (∀ (p : PortId) (s : State) (b : List Byte) (l : List (List Byte)), (s.link p).control = b :: l → imageNat b 0 1 = 1 →
    (s.port p).waiting = [] → ∃ t, exec (.skip p) s = .next t ∧
      t.port p = (s.port p).restore (imageNat b 4 4) (imageNat b 8 4) ∧ t.link p = { s.link p with control := l } ∧
      (∀ n, n ≠ p.val → t.port n = s.port n ∧ t.link n = s.link n) ∧
      t = { s with ports := t.ports, links := t.links }) ∧
  ∀ (p : PortId) (s : State), (s.port p).state = .up → (s.port p).replay ≠ [] → (s.port p).attempts < 4 → ∃ t,
    exec (.replayTimeout p) s = .next t ∧ (t.port p).replay = (s.port p).replay ∧
    (t.port p).attempts = (s.port p).attempts + 1 ∧ (t.port p).state = .up ∧ t.link p = s.link p ∧
    t.led 0x7000 0x22 p = pastTop (8 * entryWidth 0x7000 0x22) (s.led 0x7000 0x22 p + 1) ∧
    (∀ n, n ≠ p.val → t.port n = s.port n ∧ t.link n = s.link n) ∧ Safety.sameUnits s t ∧ Safety.sameMemory s t ∧
    t.front = s.front

/-- Frames received on an UP port (R492, R494, R499, R500, R504): in a frame whose codewords decode and whose CRC agrees, the
flit expected is accepted, the symbols corrected are counted, its body joins the request stream, whole requests wait in
order, and the ACK goes back; a frame that the FEC or the CRC rejects is dropped whole, counted, and answered with a NAK.
That holds with nothing waiting to be sent, fewer than 63 bad frames or counters in a row, and, for a frame accepted, an empty
replay buffer and NULL flits behind the first. -/
def Obligations.AelisFramesInOrder : Prop :=
  ∀ (p : PortId) (f : FecFrame) (s : State), (s.port p).state = .up → (s.port p).waiting = [] →
    (s.link p).badFrames < 63 → (s.link p).badCounters < 63 →
    (∀ (k : Nat) (n : Byte) (crc : Word) (bytes flit : List Byte) (nulls : List (List Byte)) (rest : List Byte)
        (items : List (List Byte)), receivedFrame f.first f.second = (k, some (n, crc, bytes)) →
      crc32 bytes = crc → chunks 256 bytes = flit :: nulls → (s.port p).replay = [] →
      (∀ x ∈ nulls, bits (imageNat x 0 4) 25 2 = 0 ∧ bit (imageNat x 0 4) 24 = false) →
      bits (imageNat flit 0 4) 25 2 = 1 → bit (imageNat flit 0 4) 24 = false →
      bits (imageNat flit 0 4) 0 12 = (s.port p).expected →
      parseStream kindReq 64 ((s.port p).streamReq ++ (flit.drop 4).take 252) = (rest, items, false) → ∃ t,
      exec (.frameReceived p f) s = .next t ∧ (t.port p).expected = ((s.port p).expected + 1) % 4096 ∧
      (t.port p).streamReq = rest ∧ (t.port p).streamRsp = (s.port p).streamRsp ∧ (t.port p).state = .up ∧
      (t.link p).requests = (s.link p).requests ++ slotMarks items ∧ (t.link p).responses = (s.link p).responses ∧
      (t.link p).badFrames = 0 ∧
      (k ≠ 0 → t.led 0x7000 0x20 p = pastTop (8 * entryWidth 0x7000 0x20) (s.led 0x7000 0x20 p + k)) ∧
      (∃ m out, (∀ o ∈ frameLight p m out, o ∈ t.out) ∧ bits (imageNat out 0 4) 12 12 = (s.port p).expected % 4096) ∧
      (∀ n, n ≠ p.val → t.port n = s.port n ∧ t.link n = s.link n) ∧ Safety.sameUnits s t ∧ Safety.sameMemory s t ∧
      t.front = s.front) ∧
    ((∀ n crc bytes, (receivedFrame f.first f.second).2 = some (n, crc, bytes) → crc32 bytes ≠ crc) → ∃ t,
      exec (.frameReceived p f) s = .next t ∧
      (t.port p).expected = (s.port p).expected ∧ (t.port p).streamReq = (s.port p).streamReq ∧
      (t.port p).streamRsp = (s.port p).streamRsp ∧ (t.port p).replay = (s.port p).replay ∧ (t.port p).state = .up ∧
      (t.link p).requests = (s.link p).requests ∧ (t.link p).responses = (s.link p).responses ∧
      (t.link p).badFrames = (s.link p).badFrames + 1 ∧
      t.led 0x7000 0x21 p = pastTop (8 * entryWidth 0x7000 0x21) (s.led 0x7000 0x21 p + 1) ∧
      (∃ m out, (∀ o ∈ frameLight p m out, o ∈ t.out) ∧ bit (imageNat out 0 4) 24 = true ∧
        bits (imageNat out 0 4) 12 12 = ((s.port p).expected + 4095) % 4096) ∧
      (∀ n, n ≠ p.val → t.port n = s.port n ∧ t.link n = s.link n) ∧ Safety.sameUnits s t ∧ Safety.sameMemory s t ∧
      t.front = s.front)

/-- The requests of peers (R178, R310, R503, R507, R508, R515): the front request of an UP port is performed and
answered: a read with the bytes, a write with an acknowledgement once they stand in memory, an atomic with the old value
where it asks for it, a page through this device's page table; a range or page that may not be touched changes nothing
and is answered ADDRESS_ERROR. -/
def Obligations.AelisServesPeers : Prop :=
  ∀ (p : PortId) (hw : Hw) (s : State) (r : List Byte) (frees : Bool) (l : List (List Byte × Bool)) (n addr : Nat)
      (c : Nat → Instr) (reply : Nat → Nat → List Byte → List Byte),
    (s.link p).requests = (r, frees) :: l → (s.port p).state = .up → (s.port p).waiting = [] → Safety.clean hw →
    Safety.sound s → n = imageNat r 4 4 → addr = imageNat r 8 8 →
    (∀ k, c k = if k = 1 then .memRead p hw else if k = 2 then .memWrite p hw else if k = 3 then .aelisAtomic p hw
      else if k = 4 then .pageRead p hw else .pageWrite p hw) →
    (∀ k value data, reply k value data = [byte (k + 7)] ++ (r.drop 1).take 2 ++ [0] ++ toBytes 4 data.length ++
      toBytes 8 value ++ data) →
    (imageNat r 0 1 % 16 = 1 → peerRange addr n = true → ∃ t, exec (c 1) s = .next t ∧
      Safety.handed s t p 2 (reply 1 0 (s.memRead addr n)) ∧ t.mem = s.mem ∧ Safety.served s t p l) ∧
    (imageNat r 0 1 % 16 = 2 → peerRange addr n = true → 16 + n ≤ r.length → ∃ t, exec (c 2) s = .next t ∧
      Safety.handed s t p 2 (reply 2 0 []) ∧ t.memRead addr n = (r.drop 16).take n ∧
      (∀ b, b < addr ∨ addr + n ≤ b → t.memRead b 1 = s.memRead b 1) ∧ Safety.served s t p l) ∧
    (∀ code w, imageNat r 0 1 % 16 = 3 → code = imageNat r 4 1 → w = atomicWidth code → 1 ≤ code → code ≤ 13 →
      addr % w = 0 → s.allCacheable addr w = true → ∃ t, exec (c 3) s = .next t ∧
      Safety.handed s t p 2 (reply 3 (if bit (imageNat r 3 1) 0 then s.memNat addr w else 0) []) ∧
      t.memNat addr w = (atomicNew code (s.memNat addr w) (cutOperand code (imageNat r 16 8))
        (cutOperand code (imageNat r 24 8))).1 ∧
      (∀ b, b < addr ∨ addr + w ≤ b → t.memRead b 1 = s.memRead b 1) ∧ Safety.served s t p l) ∧
    (∀ a k, (s.peerPage r hw).2 = some (a, k) →
      (imageNat r 0 1 % 16 = 4 → ∃ t, exec (c 4) s = .next t ∧
        Safety.handed s t p 2 (reply 4 0 (s.memRead a k)) ∧ t.mem = s.mem ∧
        t.led 0x5000 0x23 = pastTop (8 * entryWidth 0x5000 0x23) (s.led 0x5000 0x23 + 1) ∧ Safety.served s t p l) ∧
      (imageNat r 0 1 % 16 = 5 → 32 + k ≤ r.length → ∃ t, exec (c 5) s = .next t ∧
        Safety.handed s t p 2 (reply 5 0 []) ∧ t.memRead a k = (r.drop 32).take k ∧
        (∀ b, b < a ∨ a + k ≤ b → t.memRead b 1 = s.memRead b 1) ∧ Safety.served s t p l)) ∧
    ∀ k, 1 ≤ k → k ≤ 5 → imageNat r 0 1 % 16 = k →
      (k ≤ 2 → peerRange addr n = false) → (k = 3 → s.allCacheable addr (atomicWidth (imageNat r 4 1)) = false) →
      (4 ≤ k → (s.peerPage r hw).2 = none) → ∃ t, exec (c k) s = .next t ∧
        Safety.handed s t p 2 ([byte (k + 7 + 16)] ++ (r.drop 1).take 2 ++ [0, 0, 0, 0, 0] ++ toBytes 8 0) ∧
        t.mem = s.mem ∧ Safety.served s t p l

/-- The responses to this device's requests (R16, R302, R507, R509, R515), where the hardware meets no error: the request with
the response's tag is outstanding no longer, and the command that made it gets what it asked for: the bytes of a read, in
cell buffers, in this device's memory, or sent on to the host or another device; an acknowledgement; the old value of an
atomic; the rows of a page, while others are awaited; rows that the runtime wrote to a peer's page need nothing more. An error
status of a write faults its queue. -/
def Obligations.AelisResponsesComplete : Prop :=
  ∀ (p : PortId) (hw : Hw) (s : State) (r : List Byte) (frees : Bool) (l : List (List Byte × Bool)) (o : Outstanding)
      (k : Nat) (c : Nat → Instr), Safety.clean hw →
    (s.link p).responses = (r, frees) :: l → (s.port p).state = .up → (s.link p).queue = [] → 1 ≤ k → k ≤ 5 →
    imageNat r 0 1 % 16 = k + 7 →
    (∀ k, c k = if k = 1 then .readData p hw else if k = 2 then .writeAck p hw else if k = 3 then .atomicRsp p hw
      else if k = 4 then .pageData p hw else .pageAck p hw) →
    (s.link p).outstanding.find? (fun o => o.tag == imageNat r 1 2 && o.opcode == k) = some o →
    (imageNat r 0 1 / 16 = 0 →
      (∀ q place cells off, k = 1 → imageNat r 4 4 ≤ 4096 → o.waiter = .copy q place (.buffers cells off) → ∃ t, exec (c 1) s = .next t ∧
        (∀ d ∈ cells, t.bufRead d off ((r.drop 16).take (imageNat r 4 4)).length = (r.drop 16).take (imageNat r 4 4)) ∧
        (t.work q).inFlight = Safety.oneCame (s.work q).inFlight place ∧ t.mem = s.mem ∧ Safety.answeredOnce s t p o l) ∧
      (∀ q place a, k = 1 → o.waiter = .copy q place (.memory a) → Safety.sound s → ∃ t, exec (c 1) s = .next t ∧
        t.memRead a ((r.drop 16).take (imageNat r 4 4)).length = (r.drop 16).take (imageNat r 4 4) ∧
        (t.work q).inFlight = Safety.oneCame (s.work q).inFlight place ∧ t.cells = s.cells ∧
        Safety.answeredOnce s t p o l) ∧
      (∀ q place a, k = 1 → o.waiter = .copy q place (.host a) → s.pcie.up = true →
        a + ((r.drop 16).take (imageNat r 4 4)).length ≤ 2 ^ 47 → ∃ t, exec (c 1) s = .next t ∧
        t.out = .hostWrite a ((r.drop 16).take (imageNat r 4 4)) :: s.out ∧
        (t.work q).inFlight = Safety.oneCame (s.work q).inFlight place ∧ t.mem = s.mem ∧ t.cells = s.cells ∧
        Safety.answeredOnce s t p o l) ∧
      (∀ q place other a, k = 1 → o.waiter = .copy q place (.remote other a) → ∃ t, exec (c 1) s = .next t ∧
        t.mem = s.mem ∧ t.cells = s.cells ∧ t.front.queues = s.front.queues ∧ Safety.sameDevice s t ∧
        Safety.sameServing s t) ∧
      (∀ q place, k = 2 → o.waiter = .write q place → ∃ t, exec (c 2) s = .next t ∧
        (t.work q).inFlight = Safety.oneCame (s.work q).inFlight place ∧ t.mem = s.mem ∧ t.cells = s.cells ∧
        Safety.answeredOnce s t p o l) ∧
      (∀ q place cell dest code v compare, k = 3 → o.waiter = .atomic q place cell dest code v compare → ∃ t,
        exec (c 3) s = .next t ∧
        (∀ off, dest = some off →
          t.bufNat cell off (atomicWidth code) = imageNat r 8 8 % 256 ^ atomicWidth code) ∧
        (dest = none → t.cells = s.cells) ∧ (t.work q).inFlight.map InFlight.waitsFor =
          (Safety.oneCame (s.work q).inFlight place).map InFlight.waitsFor ∧ t.mem = s.mem ∧
        Safety.answeredOnce s t p o l) ∧
      (∀ q place cell index entry first count a g, k = 4 → o.waiter = .page q place cell index entry first count →
        s.fetchOf q place cell index entry = some (a, g) → 2 ≤ g.awaited → ∃ t h, exec (c 4) s = .next t ∧
        t.fetchOf q place cell index entry = some (a, h) ∧ h.awaited = g.awaited - 1 ∧
        h.parts = g.parts.put first ((r.drop 16).take (imageNat r 4 4)) ∧ t.mem = s.mem ∧ t.cells = s.cells ∧
        Safety.answeredOnce s t p o l) ∧
      (∀ q place list entry page rows, k = 5 → o.waiter = .append q place list entry page rows → 0 < rows → ∃ t,
        exec (c 5) s = .next t ∧ (t.work q).inFlight = Safety.oneCame (s.work q).inFlight place ∧
        t.led 0x5000 0x20 = pastTop (8 * entryWidth 0x5000 0x20) (s.led 0x5000 0x20 + rows) ∧ t.mem = s.mem ∧
        t.cells = s.cells ∧ Safety.answeredOnce s t p o l) ∧
      (∀ list page, k = 5 → o.waiter = .rows list page → ∃ t, exec (c 5) s = .next t ∧ t.mem = s.mem ∧
        t.cells = s.cells ∧ t.front = s.front ∧ Safety.answeredOnce s t p o l)) ∧
    ∀ q place, imageNat r 0 1 / 16 ≠ 0 → o.waiter = .write q place → (s.work q).inFlight.any (fun x => x.place == place) = true →
      (s.queue q).state ≠ .resetting → (s.queue q).state ≠ .faulted → ∃ t, exec (c k) s = .next t ∧
      (t.queue q).state = .resetting ∧ (t.queue q).faultRecord.take 1 = [5] ∧
      t.led 0x7000 0x26 p = pastTop (8 * entryWidth 0x7000 0x26) (s.led 0x7000 0x26 p + 1) ∧ t.mem = s.mem ∧
      t.cells = s.cells ∧ Safety.answeredOnce s t p o l

/-! ### PCIe and the test access port -/

/-- The link and configuration of the endpoint (R90, R104, R115, R534, R538, R539, R546, R547, R549, R552 to R554): PERST_N and
a lost link leave the registers of BAR0 and everything behind the endpoint, where no command waits for the host; in PEAT,
released while the clocks run, PERST_N lets stages 1 to 4 run once, which enable the endpoint with the stored values of the
main domain unless a power-sequencing event is recorded; a link trains at the rates that the settings allow; D3hot closes the BARs until the return to D0; BAR2 takes the sizes it has; a read that the host does not complete
faults its queue; TIME_LO latches the high dword for its path, and the host then reads both dwords. -/
def Obligations.EndpointLinkAndConfiguration : Prop :=
  (∀ s : State, s.pcie.up = true → (∀ q f, f ∈ (s.work q).inFlight → f.hostReads = []) →
    (∃ t, exec .perstNAssert s = .next t ∧ t.life = { s.life with perstHigh := false } ∧ Safety.linkReset s t) ∧
    ∃ t, exec .dlDown s = .next t ∧ t.life = s.life ∧ Safety.linkReset s t) ∧
  (∀ s : State, s.pcie.up = false → exec .perstNAssert s = .next { s with life := { s.life with perstHigh := false } } ∧
    exec .dlDown s = .next s) ∧
  (∀ (peat : Option Word) (s : State), s.life.state ≠ .peat →
    exec (.perstNRelease peat) s = .next { s with life := { s.life with perstHigh := true } }) ∧
  (∀ s : State, s.life.state = .peat → s.mainPower = true → s.power.inWindow.vaux33 = true →
    s.power.clocksStopped = false → s.life.peatTried = false → s.pcie.enabled = false →
    (s.power.sequenceBlock = none → exec (.perstNRelease none) s = .next { s with
      life := { s.life with perstHigh := true, peatTried := true }, pcie := { s.pcie with enabled := true }
      ledger := { s.ledger with
        live := applyStore s.ledger.live (s.ledger.store.filter fun x => mainIndex (x.1 / 2 ^ 24)) } }) ∧
    ∀ row, s.power.sequenceBlock = some row → ∃ t, exec (.perstNRelease none) s = .next t ∧
      t.life = { s.life with perstHigh := true, peatTried := true } ∧ t.pcie.enabled = false ∧ t.front = s.front ∧
      Safety.sameUnits s t ∧ Safety.sameMemory s t) ∧
  (∀ (speed : BitVec 3) (width : BitVec 5) (flit : Bool) (s : State),
    (s.linkTrains speed.toNat width.toNat flit = true → ∃ t, exec (.pcieLinkUp speed width flit) s = .next t ∧
      t.pcie = { s.pcie with up := true, speed := speed, width := width, flit := flit } ∧ t.life = s.life ∧
      Safety.sameUnits s t ∧ Safety.sameMemory s t ∧ t.front = s.front) ∧
    (s.linkTrains speed.toNat width.toNat flit = false → exec (.pcieLinkUp speed width flit) s = .next s)) ∧
  (∀ s : State, s.decodes = true → ∃ t, exec .d3hot s = .next t ∧ t = { s with pcie := { s.pcie with d3hot := true } } ∧
    t.decodes = false) ∧
  (∀ s : State, s.pcie.up = true → s.pcie.d3hot = true → s.power.clocksStopped = false → ∃ t, exec .returnToD0 s = .next t ∧ t.pcie.d3hot = false ∧
    t.pcie.up = true ∧ Safety.pendingSent t ∧ Safety.sameUnits s t ∧ Safety.sameMemory s t ∧ t.front = s.front) ∧
  (∀ (enable mask : Bool) (s : State), s.pcie.up = true → ∃ t, exec (.msiXEnable enable mask) s = .next t ∧
    t.pcie.msixEnable = enable ∧ t.pcie.functionMask = mask ∧ Safety.pendingSent t ∧ Safety.sameUnits s t ∧
    Safety.sameMemory s t ∧ t.front = s.front) ∧
  (∀ (size : Nat) (s : State), s.pcie.up = true → 30 ≤ size → size ≤ 37 →
    exec (.bar2Resize size) s = .next { s with pcie := { s.pcie with bar2Log := size } }) ∧
  (∀ (q : QueueId) (place : Place) (s : State) (a : Nat) (l : List Nat),
    (s.flight q place).map InFlight.hostReads = some (a :: l) → (s.queue q).state ≠ .resetting →
    (s.queue q).state ≠ .faulted → ∃ t, exec (.completionTimeout q place) s = .next t ∧ (t.queue q).state = .resetting ∧
      (t.queue q).faultRecord.take 1 = [5] ∧ (t.queue q).faultRecord.drop 24 = toBytes 8 a ∧ t.pcie.hostReqErr = true ∧
      t.pcie.hostErrCount = advanceCnt s.pcie.hostErrCount 1 ∧
      t.led 0x7800 0x12 = pastTop (8 * entryWidth 0x7800 0x12) (s.led 0x7800 0x12 + 1) ∧ Safety.sameUnits s t ∧
      Safety.sameMemory s t) ∧
  ∀ (path : AccessPath) (s : State), (path = .host → s.barOpen = true) → (path ≠ .host → s.frontRuns = true) → ∃ t,
    exec (.timeLoRead path) s = .next t ∧
    t.pcie.timeHi.get 0 (pathNumber path) = BitVec.ofNat 32 (s.time.toNat / 2 ^ 32) ∧
    (∀ n, n ≠ pathNumber path → t.pcie.timeHi.get 0 n = s.pcie.timeHi.get 0 n) ∧
    (path = .host → t.bar0Word 0x30 = s.time.toNat % 2 ^ 32 ∧ t.bar0Word 0x34 = s.time.toNat / 2 ^ 32) ∧
    t = { s with pcie := { s.pcie with timeHi := t.pcie.timeHi } }

/-- Writes of BAR0 and accesses through BAR2 (R417, R541, R544, R545, R547, R548, R553): a dword or an aligned pair
reaches its registers, a write in any other form is discarded and recorded, a poisoned one is only counted; BAR2 reads
and writes the memory behind its window while it is open, byte by byte as enabled, and a write it cannot serve is
counted. -/
def Obligations.HostReachesRegistersAndMemory : Prop :=
  (∀ (w : BarWrite) (s : State), s.decodes = true → w.offset + w.bytes.length ≤ 0x4000000 →
    (w.poisoned = true → ∃ t, exec (.bar0RegisterWrite w) s = .next t ∧ t.pcie.aerStatus.getLsbD 12 = true ∧
      t.led 0x7800 0x12 = pastTop (8 * entryWidth 0x7800 0x12) (s.led 0x7800 0x12 + 1) ∧ t.front = s.front ∧
      t.serve = s.serve ∧ t.mailbox = s.mailbox ∧ Safety.sameUnits s t ∧ Safety.sameMemory s t) ∧
    (w.poisoned = false → barDwords w = none → s.life.state ≠ .peat → ∃ t, exec (.bar0RegisterWrite w) s = .next t ∧
      t = { s with pcie := { s.pcie with accessErr := true, accessErrCount := advanceCnt s.pcie.accessErrCount 1
                                         accessErrOffset := t.pcie.accessErrOffset, accessErrBe := t.pcie.accessErrBe } } ∧
      t.pcie.accessErrOffset.toNat = w.offset / 4 * 4 % 2 ^ 26) ∧
    (∀ v, w.poisoned = false → s.life.state ≠ .peat →
      (barDwords w = some [(0x20, v)] →
        exec (.bar0RegisterWrite w) s = .next { s with pcie := { s.pcie with windowLo := (v >>> 30).setWidth 2 } }) ∧
      (barDwords w = some [(0x24, v)] →
        exec (.bar0RegisterWrite w) s = .next { s with pcie := { s.pcie with windowHi := v.setWidth 5 } }) ∧
      (barDwords w = some [(0x0C, v)] → exec (.bar0RegisterWrite w) s = .next { s with pcie := { s.pcie with
        accessErr := s.pcie.accessErr && !v.getLsbD 0, hostReqErr := s.pcie.hostReqErr && !v.getLsbD 1 } })) ∧
    ∀ (c : Fin 4096) (low high : Word), w.poisoned = false → s.reaches .host = true → s.life.state ≠ .peat →
      barDwords w = some [(0x200000 + 32 * c.val + 16, low), (0x200000 + 32 * c.val + 20, high)] → ∃ t,
        exec (.bar0RegisterWrite w) s = .next t ∧
        (∀ k, t.counter k = if k = c.val then ⟨BitVec.ofNat 63 (low.toNat + high.toNat * 2 ^ 32), false⟩
          else s.counter k) ∧
        t.bar0Word (0x200000 + 32 * c.val) = low.toNat ∧ t.bar0Word (0x200000 + 32 * c.val + 4) = high.toNat % 2 ^ 31 ∧
        t.front.queues = s.front.queues ∧ Safety.sameUnits s t ∧ Safety.sameMemory s t) ∧
  (∀ (offset n a : Nat) (hw : Hw) (s : State), s.decodes = true → 0 < n → offset + n ≤ 2 ^ s.pcie.bar2Log →
    a = s.windowAddress offset → Safety.clean hw → Safety.sound s →
    (populated a n = true → s.windowOpen = true ∨ s.haltedReadable = true → ∃ t,
      exec (.bar2Read offset n hw) s = .next t ∧ t.out = .bar2Data (s.memRead a n) :: s.out ∧ t.mem = s.mem ∧
      t.pcie = s.pcie ∧ Safety.sameUnits s t ∧ t.front = s.front) ∧
    (populated a n = false ∨ s.windowOpen = false ∧ s.haltedReadable = false → ∃ t,
      exec (.bar2Read offset n hw) s = .next t ∧ t.out = .bar2Unsupported :: s.out ∧
      t.led 0x7800 0x15 = pastTop (8 * entryWidth 0x7800 0x15) (s.led 0x7800 0x15 + 1) ∧ Safety.sameMemory s t ∧
      Safety.sameUnits s t ∧ t.front = s.front)) ∧
  ∀ (w : BarWrite) (hw : Hw) (s : State) (a : Nat), s.decodes = true → w.offset + w.bytes.length ≤ 2 ^ s.pcie.bar2Log →
    w.poisoned = false → a = s.windowAddress w.offset → Safety.clean hw → Safety.sound s →
    (populated a w.bytes.length = true → s.windowOpen = true → ∃ t, exec (.bar2Write w hw) s = .next t ∧
      (∀ i x, w.bytes[i]? = some (some x) → t.memRead (a + i) 1 = [x]) ∧
      (∀ i, w.bytes[i]? = some none → t.memRead (a + i) 1 = s.memRead (a + i) 1) ∧
      (∀ b, b < a ∨ a + w.bytes.length ≤ b → t.memRead b 1 = s.memRead b 1) ∧ t.pcie = s.pcie ∧ Safety.sameUnits s t ∧
      t.front = s.front) ∧
    (populated a w.bytes.length = false ∨ s.windowOpen = false → ∃ t, exec (.bar2Write w hw) s = .next t ∧
      t.led 0x7800 0x15 = pastTop (8 * entryWidth 0x7800 0x15) (s.led 0x7800 0x15 + 1) ∧ Safety.sameMemory s t ∧
      Safety.sameUnits s t ∧ t.pcie = s.pcie ∧ t.front = s.front)

/-- The test access port while the always-on domain has power (R718, R719, R732): each instruction selects its register;
EXTEST, CLAMP and HIGHZ act in STANDBY and PEAT alone, and elsewhere select bypass and drive nothing; factory codes act
only after a factory unlock; every other code is BYPASS. Nothing but the port changes. -/
def Obligations.TestAccessPort : Prop :=
  ∀ (s : State) (load : Byte → BitVec 2 → Bool → Bool → State), s.power.inWindow.vaux33 = true →
    (∀ ir sel drive release, load ir sel drive release =
      { s with jtag := { s.jtag with ir := ir, selected := sel, driving := drive, released := release } }) →
    exec .idcode s = .next (load 1 1 false false) ∧
    (∀ sampled preload, exec (.samplePreload sampled preload) s = .next { load 2 2 false false with
      jtag := { (load 2 2 false false).jtag with boundary := sampled, preload := preload } }) ∧
    (s.life.state = .standby ∨ s.life.state = .peat → exec .extest s = .next (load 0 2 true false) ∧
      exec .clamp s = .next (load 4 0 true false) ∧ exec .highz s = .next (load 5 0 false true)) ∧
    (s.life.state ≠ .standby → s.life.state ≠ .peat → exec .extest s = .next (load 0 0 false false) ∧
      exec .clamp s = .next (load 4 0 false false) ∧ exec .highz s = .next (load 5 0 false false)) ∧
    (∀ code : Byte, 0x80 ≤ code.toNat → code.toNat ≤ 0xFE →
      (s.led 0x9000 0x01 = 1 → exec (.factoryTest code) s = .next (load code 3 false false)) ∧
      (s.led 0x9000 0x01 ≠ 1 → exec (.factoryTest code) s = .next (load code 0 false false))) ∧
    ∀ code : Byte, code = 0xFF ∨ code = 3 ∨ 6 ≤ code.toNat ∧ code.toNat ≤ 0x7F →
      exec (.bypass code) s = .next (load code 0 false false)

/-! ### Rules stated whole -/

/-- The edges of the Oven's commands (R427, R443, R446): RING adds its wakes to a parked target and is refused with
cause TARGET_STATE when the target is not parked; a WAIT with a target of 0 completes at once, with bit 63 as the
counter holds it; RECIPE_DROP of an id that is not loaded has no effect, and a BAKE of it is refused with cause
BAD_RECIPE. -/
def Obligations.OvenEdgeRules : Prop :=
  (∀ (x : Issue) (o : RingOps) (s : State) (r : List Byte) (hw : Hw),
    Safety.offers s x 0x07 (fun r => readRing r = o) r hw →
    s.headerCheck x.queue 0x07 x.header (noCells x.header) (isKernel o.target.toNat) = none → o.target.toNat < 64 →
    1 ≤ o.wakes.toNat →
    (s.parked o.target.toNat = true → ∃ t, exec (.ring x o) s = .next t ∧
      (t.queue o.target.toNat).wakes =
        BitVec.ofNat 32 (min (2 ^ 32 - 1) ((s.queue o.target.toNat).wakes.toNat + o.wakes.toNat)) ∧
      Safety.sameSettings (s.queue o.target.toNat) (t.queue o.target.toNat) ∧ Safety.actsInOven s t x) ∧
    (s.parked o.target.toNat = false → ∃ t, exec (.ring x o) s = .next t ∧ Safety.faulted t x 0x07 14 ∧
      (∀ q : QueueId, q ≠ x.queue → t.queue q = s.queue q ∧ t.work q = s.work q) ∧ Safety.actsInOven s t x)) ∧
  (∀ (x : Issue) (o : WaitOps) (s : State) (r : List Byte) (hw : Hw),
    Safety.offers s x 0x01 (fun r => readWait r = o) r hw →
    s.headerCheck x.queue 0x01 x.header (noCells x.header) false = none → o.counter.toNat < 4096 → o.mode.toNat ≤ 1 →
    o.target = 0 → ∃ t, exec (.wait x o) s = .next t ∧ (t.work x.queue).waits = (s.work x.queue).waits ∧
      (t.queue x.queue).waitErr = ((s.queue x.queue).waitErr || (s.counter o.counter.toNat).err) ∧
      (∀ i, x.place = .ring i → (t.queue x.queue).completed = advanceCnt (s.queue x.queue).completed 1) ∧
      Safety.onlyFetched s t x ∧ Safety.sameUnits s t) ∧
  (∀ (x : Issue) (recipe : Half) (s : State) (r : List Byte) (hw : Hw),
    Safety.offers s x 0x0A (fun r => rec16 r 8 = recipe) r hw →
    s.headerCheck x.queue 0x0A x.header (noCells x.header) false = none → recipe.toNat < 1024 →
    s.recipe recipe.toNat = none → ∃ t, exec (.recipeDrop x recipe) s = .next t ∧ (∀ id, t.recipe id = s.recipe id) ∧
      (∀ q : QueueId, q ≠ x.queue → t.queue q = s.queue q ∧ t.work q = s.work q) ∧ Safety.actsInOven s t x) ∧
  ∀ (x : Issue) (o : BakeOps) (s : State) (r : List Byte) (hw : Hw) (i : Nat),
    Safety.offers s x 0x05 (fun r => readBake r = o) r hw → x.place = .ring i →
    s.headerCheck x.queue 0x05 x.header (noCells x.header) (s.kernelRecipe o.recipe.toNat) = none →
    o.recipe.toNat < 1024 → o.count.toNat ≤ 64 → (o.count = 0 → o.params.toNat % 8 = 0) →
    (o.count ≠ 0 → s.cacheFault o.params.toNat (8 * o.count.toNat) 8 = none) →
    s.recipe o.recipe.toNat = none → ∃ t, exec (.bake x o) s = .next t ∧ Safety.faulted t x 0x05 11 ∧
      (t.work x.queue).bakes = (s.work x.queue).bakes ∧ Safety.actsInOven s t x

/-- The edges of a queue's reset (R440, R441): a fault detected while a queue is RESETTING is not recorded again (every
queue fault is recorded by `faultQueue`); a commanded reset of a queue that is RESETTING or FAULTED has no effect on it;
a STOP or RESET of the issuing queue is refused with cause BAD_OPERAND. -/
def Obligations.QueueResetEdgeRules : Prop :=
  (∀ (s : State) (q opcode recipe node position : Nat) (f : QFault), (s.queue q).state = .resetting →
    s.faultQueue q opcode recipe node position f = s) ∧
  (∀ (x : Issue) (o : ControlOps) (s : State) (r : List Byte) (hw : Hw) (k : Nat), k = o.target.toNat →
    Safety.offers s x 0x0B (fun r => readControl r = o ∧ recNat r 9 1 = 5) r hw → s.controlCheck x o 5 = none →
    (s.queue k).state = .resetting ∨ (s.queue k).state = .faulted → ∃ t, exec (.reset x o) s = .next t ∧
      t.queue k = s.queue k ∧ t.work k = s.work k ∧ t.led 0x6000 0x31 = s.led 0x6000 0x31 ∧ Safety.actsInOven s t x) ∧
  ∀ (x : Issue) (o : ControlOps) (s : State) (r : List Byte) (hw : Hw) (action i : Nat) (c : Instr),
    (action = 3 ∧ c = .stop x o ∨ action = 5 ∧ c = .reset x o) → x.place = .ring i → o.target.toNat = x.queue.val →
    Safety.offers s x 0x0B (fun r => readControl r = o ∧ recNat r 9 1 = action) r hw →
    s.headerCheck x.queue 0x0B x.header (noCells x.header) false = none → ∃ t, exec c s = .next t ∧
      Safety.faulted t x 0x0B 3 ∧ (t.work x.queue).held = (s.work x.queue).held ∧ Safety.actsInOven s t x

/-! ### Encodings -/

/-- Every queue command's record spells it (R405, R408, R409): from the 64 bytes written for an opcode, a header and
operands, the decoder reads the same opcode, header, sub-operation or action, and operands, whatever values they hold.
-/
def Obligations.RecordsDecodeToTheirCommands : Prop :=
  Safety.roundTrip readWait waitBody ∧ Safety.roundTrip readEvent eventBody ∧ Safety.roundTrip readWrite writeBody ∧
    Safety.roundTrip readBake bakeBody ∧ Safety.roundTrip readEnqueue enqueueBody ∧ Safety.roundTrip readRing ringBody ∧
    Safety.roundTrip readPark parkBody ∧ Safety.roundTrip readRecipeLoad recipeLoadBody ∧
    Safety.roundTrip (fun r => rec16 r 8) recipeDropBody ∧
    Safety.roundTrip (fun r => (rec8 r 9, readControl r)) (fun x => controlBody x.1 x.2) ∧
    Safety.roundTrip readDma dmaBody ∧ Safety.roundTrip (fun r => (rec8 r 8, readAtomic r)) (fun x => atomicBody x.1 x.2) ∧
    Safety.roundTrip readKnead kneadBody ∧ Safety.roundTrip readDrain drainBody ∧
    Safety.roundTrip (fun r => (rec8 r 8, readSieve r)) (fun x => sieveBody x.1 x.2) ∧ Safety.roundTrip readRope ropeBody ∧
    Safety.roundTrip (fun r => (rec8 r 8, readStat r)) (fun x => statBody x.1 x.2) ∧
    Safety.roundTrip readAppend appendBody ∧ Safety.roundTrip readAttend attendBody ∧
    Safety.roundTrip readDelta deltaBody ∧ Safety.roundTrip readReedRun reedRunBody ∧
    Safety.roundTrip readReadout readoutBody ∧ Safety.roundTrip readReedProgram reedProgramBody
end

