-- ==== Sys2Proof/Laws/Fec.lean ====
section
/-! SUPPORT. Laws/Fec.lean: a frame whose codewords decode is read as it was sent (R491 to R494). -/

namespace Sys2Proof.Machine

/-! ### Symbols and bytes -/

/-- Symbols spell the low bits of the number that they were taken from. -/
theorem ofSymbols_symbolsFrom (v a n : Nat) :
    ofSymbols ((countFrom a n).map fun i => bits v (10 * i) 10) = v / 2 ^ (10 * a) % 1024 ^ n := by
  induction n generalizing a with
  | zero => simp [countFrom, ofSymbols, Nat.mod_one]
  | succ n ih =>
    have e : ofSymbols ((countFrom a (n + 1)).map fun i => bits v (10 * i) 10) =
        bits v (10 * a) 10 + 1024 * ofSymbols ((countFrom (a + 1) n).map fun i => bits v (10 * i) 10) := rfl
    have p : 2 ^ (10 * (a + 1)) = 2 ^ (10 * a) * 1024 := by rw [Nat.mul_succ, Nat.pow_add]
    rw [e, ih, p, ← Nat.div_div_eq_div_mul, Nat.pow_succ', Nat.mod_mul, bits]; try rfl
theorem ofSymbols_symbolsOf (v n : Nat) : ofSymbols (symbolsOf v n) = v % 1024 ^ n := by
  have := ofSymbols_symbolsFrom v 0 n
  simpa [symbolsOf] using this
/-- Bytes and the number that they spell. -/
theorem ofBytes_lt (l : List Byte) : ofBytes l < 256 ^ l.length := by
  induction l with
  | nil => simp [ofBytes]
  | cons b t ih =>
    have := b.isLt
    rw [ofBytes, List.length_cons, Nat.pow_succ]
    omega
theorem toBytes_ofBytes (l : List Byte) : toBytes l.length (ofBytes l) = l := by
  induction l with
  | nil => rfl
  | cons b t ih =>
    have h : BitVec.ofNat 8 (b.toNat + 256 * ofBytes t) = b := by
      apply BitVec.eq_of_toNat_eq
      have := b.isLt
      simp only [BitVec.toNat_ofNat]
      omega
    have q : (b.toNat + 256 * ofBytes t) / 256 = ofBytes t := by
      have := b.isLt
      omega
    rw [List.length_cons, ofBytes, toBytes, h, q, ih]
theorem symbols_spell_bytes (l : List Byte) (h : l.length = 640) : toBytes 640 (ofSymbols (symbolsOf (ofBytes l) 512)) = l := by
  have p (k : Nat) : 256 ^ (5 * k) = 1024 ^ (4 * k) := by rw [Nat.pow_mul, Nat.pow_mul]
  have e : l.length = 5 * 128 := h
  have lt := ofBytes_lt l
  rw [e, p] at lt
  rw [ofSymbols_symbolsOf, Nat.mod_eq_of_lt lt, ← h, toBytes_ofBytes]
@[simp] theorem length_symbolsOf (v n : Nat) : (symbolsOf v n).length = n := by
  have c (a : Nat) : (countFrom a n).length = n := by
    induction n generalizing a with
    | zero => rfl
    | succ n ih => simp [countFrom, ih]
  simp [symbolsOf, c]

/-! ### Frames -/

theorem take_first {p : Nat} (x y z : List Nat) (hx : x.length = p) : (x ++ y ++ z).take p = x := by simp [← hx]
theorem take_second {p q : Nat} (x y z : List Nat) (hx : x.length = p) (hy : y.length = q) :
    ((x ++ y ++ z).drop p).take q = y := by simp [← hx, ← hy]
/-- Two codewords with the data of a frame are read as that frame. -/
theorem receivedFrame_of_codewords (first second : List (List (Fin 4))) (n : Byte) (crc : Word) (bytes : List Byte)
    (checkA checkB : List Nat) (h : bytes.length = 1280)
    (ha : rsDecode (fibersCodeword first) =
      some (symbolsOf (bits (frameMarker n crc) 0 20) 2 ++ symbolsOf (ofBytes (bytes.take 640)) 512 ++ checkA, 0))
    (hb : rsDecode (fibersCodeword second) =
      some (symbolsOf (bits (frameMarker n crc) 20 20) 2 ++ symbolsOf (ofBytes (bytes.drop 640)) 512 ++ checkB, 0)) :
    receivedFrame first second = (0, some (n, crc, bytes)) := by
  have t (a b : Nat) (c : List Nat) : (symbolsOf a 2 ++ symbolsOf b 512 ++ c).take 2 = symbolsOf a 2 :=
    take_first _ _ _ (length_symbolsOf a 2)
  have d (a b : Nat) (c : List Nat) : ((symbolsOf a 2 ++ symbolsOf b 512 ++ c).drop 2).take 512 = symbolsOf b 512 :=
    take_second _ _ _ (length_symbolsOf a 2) (length_symbolsOf b 512)
  have m : bits (frameMarker n crc) 0 20 % 1024 ^ 2 + bits (frameMarker n crc) 20 20 % 1024 ^ 2 * 2 ^ 20 = frameMarker n crc := by
    have := n.isLt
    have := crc.isLt
    simp only [bits, frameMarker]
    omega
  have low : byte (frameMarker n crc) = n := by
    apply BitVec.eq_of_toNat_eq
    have := n.isLt
    simp only [byte, frameMarker, BitVec.toNat_ofNat]
    omega
  have high : BitVec.ofNat 32 (frameMarker n crc / 2 ^ 8) = crc := by
    apply BitVec.eq_of_toNat_eq
    have := n.isLt
    have := crc.isLt
    simp only [frameMarker, BitVec.toNat_ofNat]
    omega
  have sum : bytes.take 640 ++ bytes.drop 640 = bytes := List.take_append_drop 640 bytes
  have ba := symbols_spell_bytes (bytes.take 640) (by simp [h])
  have bb := symbols_spell_bytes (bytes.drop 640) (by simp [h])
  unfold receivedFrame
  rw [ha, hb]
  have two (v : Nat) : ofSymbols (symbolsOf v 2) = v % 1024 ^ 2 := ofSymbols_symbolsOf v 2
  simp only [t, d, ba, bb, two, m, low, high, sum, Option.map_some, Option.getD_some, Nat.add_zero]

end Sys2Proof.Machine
end

