-- ==== Sys2Proof/Laws/Sparse.lean ====
section
/-! SUPPORT. Laws/Sparse.lean: reading after writing in a map, and that every operation keeps the canonical form. -/

namespace Sys2Proof.Machine

section

variable {α : Type}

/-! ### Reading after one write -/

theorem Sparse.get_erase_same (d : α) (m : Sparse α) (n : Nat) : Sparse.get d (Sparse.erase m n) n = d := by
  induction m with
  | nil => rfl
  | cons p t ih =>
    obtain ⟨k, v⟩ := p
    by_cases h : k = n <;> simp [Sparse.erase, Sparse.get, h, ih]

theorem Sparse.get_erase_other (d : α) (m : Sparse α) {a b : Nat} (h : b ≠ a) :
    Sparse.get d (Sparse.erase m a) b = Sparse.get d m b := by
  induction m with
  | nil => rfl
  | cons p t ih =>
    obtain ⟨k, v⟩ := p
    by_cases e : k = a
    · subst e
      simp [Sparse.erase, Sparse.get, ih, Ne.symm h]
    · by_cases f : k = b <;> simp [Sparse.erase, Sparse.get, e, f, ih, h]

theorem Sparse.get_put_same (d : α) (m : Sparse α) (n : Nat) (x : α) : Sparse.get d (Sparse.put m n x) n = x := by
  induction m with
  | nil => simp [Sparse.put, Sparse.get]
  | cons p t ih =>
    obtain ⟨k, v⟩ := p
    unfold Sparse.put
    split
    · simp [Sparse.get]
    · split
      · simp [Sparse.get]
      · simp [Sparse.get, *]

theorem Sparse.get_put_other (d : α) (m : Sparse α) {a b : Nat} (x : α) (h : b ≠ a) :
    Sparse.get d (Sparse.put m a x) b = Sparse.get d m b := by
  induction m with
  | nil => simp [Sparse.put, Sparse.get, Ne.symm h]
  | cons p t ih =>
    obtain ⟨k, v⟩ := p
    unfold Sparse.put
    split
    · next e => subst e; simp [Sparse.get, Ne.symm h]
    · split
      · simp [Sparse.get, Ne.symm h]
      · simp [Sparse.get, ih]

section

variable [DecidableEq α]

@[simp] theorem Sparse.get_set_same (d : α) (m : Sparse α) (n : Nat) (x : α) :
    Sparse.get d (Sparse.set d m n x) n = x := by
  unfold Sparse.set
  split
  · next h => rw [h]; exact Sparse.get_erase_same d m n
  · exact Sparse.get_put_same d m n x

theorem Sparse.get_set_other (d : α) (m : Sparse α) {a b : Nat} (x : α) (h : b ≠ a) :
    Sparse.get d (Sparse.set d m a x) b = Sparse.get d m b := by
  unfold Sparse.set
  split
  · exact Sparse.get_erase_other d m h
  · exact Sparse.get_put_other d m x h

/-- A map after one write, at every key. -/
theorem Sparse.get_set (d : α) (m : Sparse α) (a b : Nat) (x : α) :
    Sparse.get d (Sparse.set d m a x) b = if b = a then x else Sparse.get d m b := by
  split
  · next h => subst h; simp
  · next h => exact Sparse.get_set_other d m x h

/-! ### Reading after a run of writes -/

theorem Sparse.get_write_other (d : α) (l : List α) (m : Sparse α) {a b : Nat} (h : b < a ∨ a + l.length ≤ b) :
    Sparse.get d (Sparse.write d m a l) b = Sparse.get d m b := by
  induction l generalizing m a with
  | nil => rfl
  | cons x t ih =>
    simp only [List.length_cons] at h
    rw [Sparse.write, ih _ (by omega), Sparse.get_set_other d m x (by omega)]

theorem Sparse.get_write (d : α) (l : List α) (m : Sparse α) (a i : Nat) (h : i < l.length) :
    Sparse.get d (Sparse.write d m a l) (a + i) = l[i] := by
  induction l generalizing m a i with
  | nil => simp at h
  | cons x t ih =>
    rw [Sparse.write]
    cases i with
    | zero => rw [Sparse.get_write_other d t _ (by omega)]; exact Sparse.get_set_same d m a x
    | succ i =>
      simp only [List.length_cons] at h
      have := ih (Sparse.set d m a x) (a + 1) i (by omega)
      rw [show a + (i + 1) = a + 1 + i by omega, this]
      rfl

end

@[simp] theorem Sparse.length_read (d : α) (m : Sparse α) (a n : Nat) : (Sparse.read d m a n).length = n := by
  induction n generalizing a with
  | zero => rfl
  | succ n ih => simp [Sparse.read, ih]

theorem Sparse.getElem_read (d : α) (m : Sparse α) (a n i : Nat) (h : i < (Sparse.read d m a n).length) :
    (Sparse.read d m a n)[i] = Sparse.get d m (a + i) := by
  induction n generalizing a i with
  | zero => simp [Sparse.read] at h
  | succ n ih =>
    cases i with
    | zero => simp [Sparse.read]
    | succ i => simp [Sparse.read, ih, show a + 1 + i = a + (i + 1) by omega]

section

variable [DecidableEq α]

/-- What was written reads back. -/
theorem Sparse.read_write (d : α) (m : Sparse α) (a : Nat) (l : List α) :
    Sparse.read d (Sparse.write d m a l) a l.length = l := by
  apply List.ext_getElem
  · simp
  · intro i h1 h2
    rw [Sparse.getElem_read, Sparse.get_write d l m a i h2]

/-- A span clear of what was written reads as before. -/
theorem Sparse.read_write_other (d : α) (m : Sparse α) (a : Nat) (l : List α) (b n : Nat)
    (h : b + n ≤ a ∨ a + l.length ≤ b) : Sparse.read d (Sparse.write d m a l) b n = Sparse.read d m b n := by
  apply List.ext_getElem
  · simp
  · intro i h1 h2
    simp only [Sparse.length_read] at h1
    rw [Sparse.getElem_read, Sparse.getElem_read, Sparse.get_write_other d l m (by omega)]

/-! ### The canonical form -/

theorem Sparse.wfFrom_le (d : α) (m : Sparse α) {lo hi : Nat} (h : lo ≤ hi) (w : Sparse.wfFrom d hi m = true) :
    Sparse.wfFrom d lo m = true := by
  cases m with
  | nil => rfl
  | cons p t =>
    obtain ⟨k, v⟩ := p
    simp only [Sparse.wfFrom, Bool.and_eq_true, decide_eq_true_eq] at w ⊢
    exact ⟨⟨by omega, w.1.2⟩, w.2⟩

theorem Sparse.wfFrom_erase (d : α) (m : Sparse α) (lo n : Nat) (w : Sparse.wfFrom d lo m = true) :
    Sparse.wfFrom d lo (Sparse.erase m n) = true := by
  induction m generalizing lo with
  | nil => rfl
  | cons p t ih =>
    obtain ⟨k, v⟩ := p
    simp only [Sparse.wfFrom, Bool.and_eq_true, decide_eq_true_eq] at w
    unfold Sparse.erase
    split
    · exact Sparse.wfFrom_le d _ (by omega) (ih (k + 1) w.2)
    · simp only [Sparse.wfFrom, Bool.and_eq_true, decide_eq_true_eq]
      exact ⟨w.1, ih (k + 1) w.2⟩

theorem Sparse.wfFrom_put (d : α) (m : Sparse α) (lo n : Nat) (x : α) (hx : x ≠ d) (hn : lo ≤ n)
    (w : Sparse.wfFrom d lo m = true) : Sparse.wfFrom d lo (Sparse.put m n x) = true := by
  induction m generalizing lo with
  | nil => simp [Sparse.put, Sparse.wfFrom, hx, hn]
  | cons p t ih =>
    obtain ⟨k, v⟩ := p
    simp only [Sparse.wfFrom, Bool.and_eq_true, decide_eq_true_eq] at w
    unfold Sparse.put
    split
    · next e =>
      simp only [Sparse.wfFrom, Bool.and_eq_true, decide_eq_true_eq]
      exact ⟨⟨hn, hx⟩, e ▸ w.2⟩
    · split
      · simp only [Sparse.wfFrom, Bool.and_eq_true, decide_eq_true_eq]
        exact ⟨⟨hn, hx⟩, ⟨by omega, w.1.2⟩, w.2⟩
      · simp only [Sparse.wfFrom, Bool.and_eq_true, decide_eq_true_eq]
        exact ⟨w.1, ih (k + 1) (by omega) w.2⟩

/-- A write keeps the canonical form. -/
theorem Sparse.wf_set (d : α) (m : Sparse α) (n : Nat) (x : α) (w : Sparse.wf d m = true) :
    Sparse.wf d (Sparse.set d m n x) = true := by
  unfold Sparse.set
  split
  · exact Sparse.wfFrom_erase d m 0 n w
  · next h => exact Sparse.wfFrom_put d m 0 n x h (by omega) w

/-- A run of writes keeps the canonical form. -/
theorem Sparse.wf_write (d : α) (l : List α) (m : Sparse α) (a : Nat) (w : Sparse.wf d m = true) :
    Sparse.wf d (Sparse.write d m a l) = true := by
  induction l generalizing m a with
  | nil => exact w
  | cons x t ih => exact ih _ _ (Sparse.wf_set d m a x w)

/-- A run of writes under enables keeps the canonical form. -/
theorem Sparse.wf_writeMasked (d : α) (l : List (Option α)) (m : Sparse α) (a : Nat) (w : Sparse.wf d m = true) :
    Sparse.wf d (Sparse.writeMasked d m a l) = true := by
  induction l generalizing m a with
  | nil => exact w
  | cons x t ih =>
    cases x with
    | none => exact ih _ _ w
    | some x => exact ih _ _ (Sparse.wf_set d m a x w)

theorem Sparse.wfFrom_filter (d : α) (m : Sparse α) (p : Nat × α → Bool) (lo : Nat) (w : Sparse.wfFrom d lo m = true) :
    Sparse.wfFrom d lo (m.filter p) = true := by
  induction m generalizing lo with
  | nil => rfl
  | cons e t ih =>
    obtain ⟨k, v⟩ := e
    simp only [Sparse.wfFrom, Bool.and_eq_true, decide_eq_true_eq] at w
    rw [List.filter_cons]
    split
    · simp only [Sparse.wfFrom, Bool.and_eq_true, decide_eq_true_eq]
      exact ⟨w.1, ih (k + 1) w.2⟩
    · exact Sparse.wfFrom_le d _ (by omega) (ih (k + 1) w.2)

/-- Clearing a span keeps the canonical form. -/
theorem Sparse.wf_clear (d : α) (m : Sparse α) (lo n : Nat) (w : Sparse.wf d m = true) :
    Sparse.wf d (Sparse.clear m lo n) = true := Sparse.wfFrom_filter d m _ 0 w

end

/-! ### Listed values -/

theorem Sparse.find?_erase_same (m : Sparse α) (n : Nat) : Sparse.find? (Sparse.erase m n) n = none := by
  induction m with
  | nil => rfl
  | cons p t ih =>
    obtain ⟨k, v⟩ := p
    by_cases h : k = n <;> simp [Sparse.erase, Sparse.find?, h, ih]

theorem Sparse.find?_erase_other (m : Sparse α) {a b : Nat} (h : b ≠ a) :
    Sparse.find? (Sparse.erase m a) b = Sparse.find? m b := by
  induction m with
  | nil => rfl
  | cons p t ih =>
    obtain ⟨k, v⟩ := p
    by_cases e : k = a
    · subst e
      simp [Sparse.erase, Sparse.find?, ih, Ne.symm h]
    · by_cases f : k = b <;> simp [Sparse.erase, Sparse.find?, e, f, ih, h]

theorem Sparse.find?_put_same (m : Sparse α) (n : Nat) (x : α) : Sparse.find? (Sparse.put m n x) n = some x := by
  induction m with
  | nil => simp [Sparse.put, Sparse.find?]
  | cons p t ih =>
    obtain ⟨k, v⟩ := p
    unfold Sparse.put
    split
    · simp [Sparse.find?]
    · split
      · simp [Sparse.find?]
      · simp [Sparse.find?, *]

theorem Sparse.find?_put_other (m : Sparse α) {a b : Nat} (x : α) (h : b ≠ a) :
    Sparse.find? (Sparse.put m a x) b = Sparse.find? m b := by
  induction m with
  | nil => simp [Sparse.put, Sparse.find?, Ne.symm h]
  | cons p t ih =>
    obtain ⟨k, v⟩ := p
    unfold Sparse.put
    split
    · next e => subst e; simp [Sparse.find?, Ne.symm h]
    · split
      · simp [Sparse.find?, Ne.symm h]
      · simp [Sparse.find?, ih]

end

end Sys2Proof.Machine
end

