-- ==== Sys2Proof/Laws/State.lean ====
section
/-! SUPPORT. Laws/State.lean: what each named update of the state leaves as it was, one lemma per field and update, so that
no proof unfolds a record update. -/

namespace Sys2Proof.Machine

section

variable (s : State)

/-! ### setLed -/

@[simp] theorem State.setLed_pending (index sub elem v : Nat) : (s.setLed index sub elem v).pending = s.pending := rfl
@[simp] theorem State.setLed_power (index sub elem v : Nat) : (s.setLed index sub elem v).power = s.power := rfl
@[simp] theorem State.setLed_life (index sub elem v : Nat) : (s.setLed index sub elem v).life = s.life := rfl
@[simp] theorem State.setLed_sensors (index sub elem v : Nat) : (s.setLed index sub elem v).sensors = s.sensors := rfl
@[simp] theorem State.setLed_log (index sub elem v : Nat) : (s.setLed index sub elem v).log = s.log := rfl
@[simp] theorem State.setLed_uhleg (index sub elem v : Nat) : (s.setLed index sub elem v).uhleg = s.uhleg := rfl
@[simp] theorem State.setLed_update (index sub elem v : Nat) : (s.setLed index sub elem v).update = s.update := rfl
@[simp] theorem State.setLed_mailbox (index sub elem v : Nat) : (s.setLed index sub elem v).mailbox = s.mailbox := rfl
@[simp] theorem State.setLed_corePort (index sub elem v : Nat) : (s.setLed index sub elem v).corePort = s.corePort := rfl
@[simp] theorem State.setLed_can (index sub elem v : Nat) : (s.setLed index sub elem v).can = s.can := rfl
@[simp] theorem State.setLed_unlock (index sub elem v : Nat) : (s.setLed index sub elem v).unlock = s.unlock := rfl
@[simp] theorem State.setLed_fuses (index sub elem v : Nat) : (s.setLed index sub elem v).fuses = s.fuses := rfl
@[simp] theorem State.setLed_time (index sub elem v : Nat) : (s.setLed index sub elem v).time = s.time := rfl
@[simp] theorem State.setLed_mem (index sub elem v : Nat) : (s.setLed index sub elem v).mem = s.mem := rfl
@[simp] theorem State.setLed_memctl (index sub elem v : Nat) : (s.setLed index sub elem v).memctl = s.memctl := rfl
@[simp] theorem State.setLed_cache (index sub elem v : Nat) : (s.setLed index sub elem v).cache = s.cache := rfl
@[simp] theorem State.setLed_cells (index sub elem v : Nat) : (s.setLed index sub elem v).cells = s.cells := rfl
@[simp] theorem State.setLed_reed (index sub elem v : Nat) : (s.setLed index sub elem v).reed = s.reed := rfl
@[simp] theorem State.setLed_front (index sub elem v : Nat) : (s.setLed index sub elem v).front = s.front := rfl
@[simp] theorem State.setLed_serve (index sub elem v : Nat) : (s.setLed index sub elem v).serve = s.serve := rfl
@[simp] theorem State.setLed_runtime (index sub elem v : Nat) : (s.setLed index sub elem v).runtime = s.runtime := rfl
@[simp] theorem State.setLed_tree (index sub elem v : Nat) : (s.setLed index sub elem v).tree = s.tree := rfl
@[simp] theorem State.setLed_ports (index sub elem v : Nat) : (s.setLed index sub elem v).ports = s.ports := rfl
@[simp] theorem State.setLed_links (index sub elem v : Nat) : (s.setLed index sub elem v).links = s.links := rfl
@[simp] theorem State.setLed_pcie (index sub elem v : Nat) : (s.setLed index sub elem v).pcie = s.pcie := rfl
@[simp] theorem State.setLed_jtag (index sub elem v : Nat) : (s.setLed index sub elem v).jtag = s.jtag := rfl
@[simp] theorem State.setLed_cores (index sub elem v : Nat) : (s.setLed index sub elem v).cores = s.cores := rfl
@[simp] theorem State.setLed_fresh (index sub elem v : Nat) : (s.setLed index sub elem v).fresh = s.fresh := rfl
@[simp] theorem State.setLed_out (index sub elem v : Nat) : (s.setLed index sub elem v).out = s.out := rfl

/-! ### storeLed -/

@[simp] theorem State.storeLed_pending (index sub elem v : Nat) : (s.storeLed index sub elem v).pending = s.pending := rfl
@[simp] theorem State.storeLed_power (index sub elem v : Nat) : (s.storeLed index sub elem v).power = s.power := rfl
@[simp] theorem State.storeLed_life (index sub elem v : Nat) : (s.storeLed index sub elem v).life = s.life := rfl
@[simp] theorem State.storeLed_sensors (index sub elem v : Nat) : (s.storeLed index sub elem v).sensors = s.sensors := rfl
@[simp] theorem State.storeLed_log (index sub elem v : Nat) : (s.storeLed index sub elem v).log = s.log := rfl
@[simp] theorem State.storeLed_uhleg (index sub elem v : Nat) : (s.storeLed index sub elem v).uhleg = s.uhleg := rfl
@[simp] theorem State.storeLed_update (index sub elem v : Nat) : (s.storeLed index sub elem v).update = s.update := rfl
@[simp] theorem State.storeLed_mailbox (index sub elem v : Nat) : (s.storeLed index sub elem v).mailbox = s.mailbox := rfl
@[simp] theorem State.storeLed_corePort (index sub elem v : Nat) : (s.storeLed index sub elem v).corePort = s.corePort := rfl
@[simp] theorem State.storeLed_can (index sub elem v : Nat) : (s.storeLed index sub elem v).can = s.can := rfl
@[simp] theorem State.storeLed_unlock (index sub elem v : Nat) : (s.storeLed index sub elem v).unlock = s.unlock := rfl
@[simp] theorem State.storeLed_fuses (index sub elem v : Nat) : (s.storeLed index sub elem v).fuses = s.fuses := rfl
@[simp] theorem State.storeLed_time (index sub elem v : Nat) : (s.storeLed index sub elem v).time = s.time := rfl
@[simp] theorem State.storeLed_mem (index sub elem v : Nat) : (s.storeLed index sub elem v).mem = s.mem := rfl
@[simp] theorem State.storeLed_memctl (index sub elem v : Nat) : (s.storeLed index sub elem v).memctl = s.memctl := rfl
@[simp] theorem State.storeLed_cache (index sub elem v : Nat) : (s.storeLed index sub elem v).cache = s.cache := rfl
@[simp] theorem State.storeLed_cells (index sub elem v : Nat) : (s.storeLed index sub elem v).cells = s.cells := rfl
@[simp] theorem State.storeLed_reed (index sub elem v : Nat) : (s.storeLed index sub elem v).reed = s.reed := rfl
@[simp] theorem State.storeLed_front (index sub elem v : Nat) : (s.storeLed index sub elem v).front = s.front := rfl
@[simp] theorem State.storeLed_serve (index sub elem v : Nat) : (s.storeLed index sub elem v).serve = s.serve := rfl
@[simp] theorem State.storeLed_runtime (index sub elem v : Nat) : (s.storeLed index sub elem v).runtime = s.runtime := rfl
@[simp] theorem State.storeLed_tree (index sub elem v : Nat) : (s.storeLed index sub elem v).tree = s.tree := rfl
@[simp] theorem State.storeLed_ports (index sub elem v : Nat) : (s.storeLed index sub elem v).ports = s.ports := rfl
@[simp] theorem State.storeLed_links (index sub elem v : Nat) : (s.storeLed index sub elem v).links = s.links := rfl
@[simp] theorem State.storeLed_pcie (index sub elem v : Nat) : (s.storeLed index sub elem v).pcie = s.pcie := rfl
@[simp] theorem State.storeLed_jtag (index sub elem v : Nat) : (s.storeLed index sub elem v).jtag = s.jtag := rfl
@[simp] theorem State.storeLed_cores (index sub elem v : Nat) : (s.storeLed index sub elem v).cores = s.cores := rfl
@[simp] theorem State.storeLed_fresh (index sub elem v : Nat) : (s.storeLed index sub elem v).fresh = s.fresh := rfl
@[simp] theorem State.storeLed_out (index sub elem v : Nat) : (s.storeLed index sub elem v).out = s.out := rfl

/-! ### setStored -/

@[simp] theorem State.setStored_pending (index sub elem v : Nat) : (s.setStored index sub elem v).pending = s.pending := rfl
@[simp] theorem State.setStored_power (index sub elem v : Nat) : (s.setStored index sub elem v).power = s.power := rfl
@[simp] theorem State.setStored_life (index sub elem v : Nat) : (s.setStored index sub elem v).life = s.life := rfl
@[simp] theorem State.setStored_sensors (index sub elem v : Nat) : (s.setStored index sub elem v).sensors = s.sensors := rfl
@[simp] theorem State.setStored_log (index sub elem v : Nat) : (s.setStored index sub elem v).log = s.log := rfl
@[simp] theorem State.setStored_uhleg (index sub elem v : Nat) : (s.setStored index sub elem v).uhleg = s.uhleg := rfl
@[simp] theorem State.setStored_update (index sub elem v : Nat) : (s.setStored index sub elem v).update = s.update := rfl
@[simp] theorem State.setStored_mailbox (index sub elem v : Nat) : (s.setStored index sub elem v).mailbox = s.mailbox := rfl
@[simp] theorem State.setStored_corePort (index sub elem v : Nat) : (s.setStored index sub elem v).corePort = s.corePort :=
  rfl
@[simp] theorem State.setStored_can (index sub elem v : Nat) : (s.setStored index sub elem v).can = s.can := rfl
@[simp] theorem State.setStored_unlock (index sub elem v : Nat) : (s.setStored index sub elem v).unlock = s.unlock := rfl
@[simp] theorem State.setStored_fuses (index sub elem v : Nat) : (s.setStored index sub elem v).fuses = s.fuses := rfl
@[simp] theorem State.setStored_time (index sub elem v : Nat) : (s.setStored index sub elem v).time = s.time := rfl
@[simp] theorem State.setStored_mem (index sub elem v : Nat) : (s.setStored index sub elem v).mem = s.mem := rfl
@[simp] theorem State.setStored_memctl (index sub elem v : Nat) : (s.setStored index sub elem v).memctl = s.memctl := rfl
@[simp] theorem State.setStored_cache (index sub elem v : Nat) : (s.setStored index sub elem v).cache = s.cache := rfl
@[simp] theorem State.setStored_cells (index sub elem v : Nat) : (s.setStored index sub elem v).cells = s.cells := rfl
@[simp] theorem State.setStored_reed (index sub elem v : Nat) : (s.setStored index sub elem v).reed = s.reed := rfl
@[simp] theorem State.setStored_front (index sub elem v : Nat) : (s.setStored index sub elem v).front = s.front := rfl
@[simp] theorem State.setStored_serve (index sub elem v : Nat) : (s.setStored index sub elem v).serve = s.serve := rfl
@[simp] theorem State.setStored_runtime (index sub elem v : Nat) : (s.setStored index sub elem v).runtime = s.runtime := rfl
@[simp] theorem State.setStored_tree (index sub elem v : Nat) : (s.setStored index sub elem v).tree = s.tree := rfl
@[simp] theorem State.setStored_ports (index sub elem v : Nat) : (s.setStored index sub elem v).ports = s.ports := rfl
@[simp] theorem State.setStored_links (index sub elem v : Nat) : (s.setStored index sub elem v).links = s.links := rfl
@[simp] theorem State.setStored_pcie (index sub elem v : Nat) : (s.setStored index sub elem v).pcie = s.pcie := rfl
@[simp] theorem State.setStored_jtag (index sub elem v : Nat) : (s.setStored index sub elem v).jtag = s.jtag := rfl
@[simp] theorem State.setStored_cores (index sub elem v : Nat) : (s.setStored index sub elem v).cores = s.cores := rfl
@[simp] theorem State.setStored_fresh (index sub elem v : Nat) : (s.setStored index sub elem v).fresh = s.fresh := rfl
@[simp] theorem State.setStored_out (index sub elem v : Nat) : (s.setStored index sub elem v).out = s.out := rfl

/-! ### emit -/

@[simp] theorem State.emit_pending (o : Out) : (s.emit o).pending = s.pending := rfl
@[simp] theorem State.emit_power (o : Out) : (s.emit o).power = s.power := rfl
@[simp] theorem State.emit_life (o : Out) : (s.emit o).life = s.life := rfl
@[simp] theorem State.emit_sensors (o : Out) : (s.emit o).sensors = s.sensors := rfl
@[simp] theorem State.emit_ledger (o : Out) : (s.emit o).ledger = s.ledger := rfl
@[simp] theorem State.emit_log (o : Out) : (s.emit o).log = s.log := rfl
@[simp] theorem State.emit_uhleg (o : Out) : (s.emit o).uhleg = s.uhleg := rfl
@[simp] theorem State.emit_update (o : Out) : (s.emit o).update = s.update := rfl
@[simp] theorem State.emit_mailbox (o : Out) : (s.emit o).mailbox = s.mailbox := rfl
@[simp] theorem State.emit_corePort (o : Out) : (s.emit o).corePort = s.corePort := rfl
@[simp] theorem State.emit_can (o : Out) : (s.emit o).can = s.can := rfl
@[simp] theorem State.emit_unlock (o : Out) : (s.emit o).unlock = s.unlock := rfl
@[simp] theorem State.emit_fuses (o : Out) : (s.emit o).fuses = s.fuses := rfl
@[simp] theorem State.emit_time (o : Out) : (s.emit o).time = s.time := rfl
@[simp] theorem State.emit_mem (o : Out) : (s.emit o).mem = s.mem := rfl
@[simp] theorem State.emit_memctl (o : Out) : (s.emit o).memctl = s.memctl := rfl
@[simp] theorem State.emit_cache (o : Out) : (s.emit o).cache = s.cache := rfl
@[simp] theorem State.emit_cells (o : Out) : (s.emit o).cells = s.cells := rfl
@[simp] theorem State.emit_reed (o : Out) : (s.emit o).reed = s.reed := rfl
@[simp] theorem State.emit_front (o : Out) : (s.emit o).front = s.front := rfl
@[simp] theorem State.emit_serve (o : Out) : (s.emit o).serve = s.serve := rfl
@[simp] theorem State.emit_runtime (o : Out) : (s.emit o).runtime = s.runtime := rfl
@[simp] theorem State.emit_tree (o : Out) : (s.emit o).tree = s.tree := rfl
@[simp] theorem State.emit_ports (o : Out) : (s.emit o).ports = s.ports := rfl
@[simp] theorem State.emit_links (o : Out) : (s.emit o).links = s.links := rfl
@[simp] theorem State.emit_pcie (o : Out) : (s.emit o).pcie = s.pcie := rfl
@[simp] theorem State.emit_jtag (o : Out) : (s.emit o).jtag = s.jtag := rfl
@[simp] theorem State.emit_cores (o : Out) : (s.emit o).cores = s.cores := rfl
@[simp] theorem State.emit_fresh (o : Out) : (s.emit o).fresh = s.fresh := rfl

/-! ### withFront -/

@[simp] theorem State.withFront_pending (l : List LogRec) : (s.withFront l).pending = s.pending := rfl
@[simp] theorem State.withFront_power (l : List LogRec) : (s.withFront l).power = s.power := rfl
@[simp] theorem State.withFront_life (l : List LogRec) : (s.withFront l).life = s.life := rfl
@[simp] theorem State.withFront_sensors (l : List LogRec) : (s.withFront l).sensors = s.sensors := rfl
@[simp] theorem State.withFront_ledger (l : List LogRec) : (s.withFront l).ledger = s.ledger := rfl
@[simp] theorem State.withFront_uhleg (l : List LogRec) : (s.withFront l).uhleg = s.uhleg := rfl
@[simp] theorem State.withFront_update (l : List LogRec) : (s.withFront l).update = s.update := rfl
@[simp] theorem State.withFront_mailbox (l : List LogRec) : (s.withFront l).mailbox = s.mailbox := rfl
@[simp] theorem State.withFront_corePort (l : List LogRec) : (s.withFront l).corePort = s.corePort := rfl
@[simp] theorem State.withFront_can (l : List LogRec) : (s.withFront l).can = s.can := rfl
@[simp] theorem State.withFront_unlock (l : List LogRec) : (s.withFront l).unlock = s.unlock := rfl
@[simp] theorem State.withFront_fuses (l : List LogRec) : (s.withFront l).fuses = s.fuses := rfl
@[simp] theorem State.withFront_time (l : List LogRec) : (s.withFront l).time = s.time := rfl
@[simp] theorem State.withFront_mem (l : List LogRec) : (s.withFront l).mem = s.mem := rfl
@[simp] theorem State.withFront_memctl (l : List LogRec) : (s.withFront l).memctl = s.memctl := rfl
@[simp] theorem State.withFront_cache (l : List LogRec) : (s.withFront l).cache = s.cache := rfl
@[simp] theorem State.withFront_cells (l : List LogRec) : (s.withFront l).cells = s.cells := rfl
@[simp] theorem State.withFront_reed (l : List LogRec) : (s.withFront l).reed = s.reed := rfl
@[simp] theorem State.withFront_front (l : List LogRec) : (s.withFront l).front = s.front := rfl
@[simp] theorem State.withFront_serve (l : List LogRec) : (s.withFront l).serve = s.serve := rfl
@[simp] theorem State.withFront_runtime (l : List LogRec) : (s.withFront l).runtime = s.runtime := rfl
@[simp] theorem State.withFront_tree (l : List LogRec) : (s.withFront l).tree = s.tree := rfl
@[simp] theorem State.withFront_ports (l : List LogRec) : (s.withFront l).ports = s.ports := rfl
@[simp] theorem State.withFront_links (l : List LogRec) : (s.withFront l).links = s.links := rfl
@[simp] theorem State.withFront_pcie (l : List LogRec) : (s.withFront l).pcie = s.pcie := rfl
@[simp] theorem State.withFront_jtag (l : List LogRec) : (s.withFront l).jtag = s.jtag := rfl
@[simp] theorem State.withFront_cores (l : List LogRec) : (s.withFront l).cores = s.cores := rfl
@[simp] theorem State.withFront_fresh (l : List LogRec) : (s.withFront l).fresh = s.fresh := rfl
@[simp] theorem State.withFront_out (l : List LogRec) : (s.withFront l).out = s.out := rfl

/-! ### memWrite -/

@[simp] theorem State.memWrite_pending (a : Nat) (l : List Byte) : (s.memWrite a l).pending = s.pending := rfl
@[simp] theorem State.memWrite_power (a : Nat) (l : List Byte) : (s.memWrite a l).power = s.power := rfl
@[simp] theorem State.memWrite_life (a : Nat) (l : List Byte) : (s.memWrite a l).life = s.life := rfl
@[simp] theorem State.memWrite_sensors (a : Nat) (l : List Byte) : (s.memWrite a l).sensors = s.sensors := rfl
@[simp] theorem State.memWrite_ledger (a : Nat) (l : List Byte) : (s.memWrite a l).ledger = s.ledger := rfl
@[simp] theorem State.memWrite_log (a : Nat) (l : List Byte) : (s.memWrite a l).log = s.log := rfl
@[simp] theorem State.memWrite_uhleg (a : Nat) (l : List Byte) : (s.memWrite a l).uhleg = s.uhleg := rfl
@[simp] theorem State.memWrite_update (a : Nat) (l : List Byte) : (s.memWrite a l).update = s.update := rfl
@[simp] theorem State.memWrite_mailbox (a : Nat) (l : List Byte) : (s.memWrite a l).mailbox = s.mailbox := rfl
@[simp] theorem State.memWrite_corePort (a : Nat) (l : List Byte) : (s.memWrite a l).corePort = s.corePort := rfl
@[simp] theorem State.memWrite_can (a : Nat) (l : List Byte) : (s.memWrite a l).can = s.can := rfl
@[simp] theorem State.memWrite_unlock (a : Nat) (l : List Byte) : (s.memWrite a l).unlock = s.unlock := rfl
@[simp] theorem State.memWrite_fuses (a : Nat) (l : List Byte) : (s.memWrite a l).fuses = s.fuses := rfl
@[simp] theorem State.memWrite_time (a : Nat) (l : List Byte) : (s.memWrite a l).time = s.time := rfl
@[simp] theorem State.memWrite_memctl (a : Nat) (l : List Byte) : (s.memWrite a l).memctl = s.memctl := rfl
@[simp] theorem State.memWrite_cache (a : Nat) (l : List Byte) : (s.memWrite a l).cache = s.cache := rfl
@[simp] theorem State.memWrite_cells (a : Nat) (l : List Byte) : (s.memWrite a l).cells = s.cells := rfl
@[simp] theorem State.memWrite_reed (a : Nat) (l : List Byte) : (s.memWrite a l).reed = s.reed := rfl
@[simp] theorem State.memWrite_front (a : Nat) (l : List Byte) : (s.memWrite a l).front = s.front := rfl
@[simp] theorem State.memWrite_serve (a : Nat) (l : List Byte) : (s.memWrite a l).serve = s.serve := rfl
@[simp] theorem State.memWrite_runtime (a : Nat) (l : List Byte) : (s.memWrite a l).runtime = s.runtime := rfl
@[simp] theorem State.memWrite_tree (a : Nat) (l : List Byte) : (s.memWrite a l).tree = s.tree := rfl
@[simp] theorem State.memWrite_ports (a : Nat) (l : List Byte) : (s.memWrite a l).ports = s.ports := rfl
@[simp] theorem State.memWrite_links (a : Nat) (l : List Byte) : (s.memWrite a l).links = s.links := rfl
@[simp] theorem State.memWrite_pcie (a : Nat) (l : List Byte) : (s.memWrite a l).pcie = s.pcie := rfl
@[simp] theorem State.memWrite_jtag (a : Nat) (l : List Byte) : (s.memWrite a l).jtag = s.jtag := rfl
@[simp] theorem State.memWrite_cores (a : Nat) (l : List Byte) : (s.memWrite a l).cores = s.cores := rfl
@[simp] theorem State.memWrite_fresh (a : Nat) (l : List Byte) : (s.memWrite a l).fresh = s.fresh := rfl
@[simp] theorem State.memWrite_out (a : Nat) (l : List Byte) : (s.memWrite a l).out = s.out := rfl

/-! ### setQueue -/

@[simp] theorem State.setQueue_pending (q : Nat) (x : Queue) : (s.setQueue q x).pending = s.pending := rfl
@[simp] theorem State.setQueue_power (q : Nat) (x : Queue) : (s.setQueue q x).power = s.power := rfl
@[simp] theorem State.setQueue_life (q : Nat) (x : Queue) : (s.setQueue q x).life = s.life := rfl
@[simp] theorem State.setQueue_sensors (q : Nat) (x : Queue) : (s.setQueue q x).sensors = s.sensors := rfl
@[simp] theorem State.setQueue_ledger (q : Nat) (x : Queue) : (s.setQueue q x).ledger = s.ledger := rfl
@[simp] theorem State.setQueue_log (q : Nat) (x : Queue) : (s.setQueue q x).log = s.log := rfl
@[simp] theorem State.setQueue_uhleg (q : Nat) (x : Queue) : (s.setQueue q x).uhleg = s.uhleg := rfl
@[simp] theorem State.setQueue_update (q : Nat) (x : Queue) : (s.setQueue q x).update = s.update := rfl
@[simp] theorem State.setQueue_mailbox (q : Nat) (x : Queue) : (s.setQueue q x).mailbox = s.mailbox := rfl
@[simp] theorem State.setQueue_corePort (q : Nat) (x : Queue) : (s.setQueue q x).corePort = s.corePort := rfl
@[simp] theorem State.setQueue_can (q : Nat) (x : Queue) : (s.setQueue q x).can = s.can := rfl
@[simp] theorem State.setQueue_unlock (q : Nat) (x : Queue) : (s.setQueue q x).unlock = s.unlock := rfl
@[simp] theorem State.setQueue_fuses (q : Nat) (x : Queue) : (s.setQueue q x).fuses = s.fuses := rfl
@[simp] theorem State.setQueue_time (q : Nat) (x : Queue) : (s.setQueue q x).time = s.time := rfl
@[simp] theorem State.setQueue_mem (q : Nat) (x : Queue) : (s.setQueue q x).mem = s.mem := rfl
@[simp] theorem State.setQueue_memctl (q : Nat) (x : Queue) : (s.setQueue q x).memctl = s.memctl := rfl
@[simp] theorem State.setQueue_cache (q : Nat) (x : Queue) : (s.setQueue q x).cache = s.cache := rfl
@[simp] theorem State.setQueue_cells (q : Nat) (x : Queue) : (s.setQueue q x).cells = s.cells := rfl
@[simp] theorem State.setQueue_reed (q : Nat) (x : Queue) : (s.setQueue q x).reed = s.reed := rfl
@[simp] theorem State.setQueue_serve (q : Nat) (x : Queue) : (s.setQueue q x).serve = s.serve := rfl
@[simp] theorem State.setQueue_runtime (q : Nat) (x : Queue) : (s.setQueue q x).runtime = s.runtime := rfl
@[simp] theorem State.setQueue_tree (q : Nat) (x : Queue) : (s.setQueue q x).tree = s.tree := rfl
@[simp] theorem State.setQueue_ports (q : Nat) (x : Queue) : (s.setQueue q x).ports = s.ports := rfl
@[simp] theorem State.setQueue_links (q : Nat) (x : Queue) : (s.setQueue q x).links = s.links := rfl
@[simp] theorem State.setQueue_pcie (q : Nat) (x : Queue) : (s.setQueue q x).pcie = s.pcie := rfl
@[simp] theorem State.setQueue_jtag (q : Nat) (x : Queue) : (s.setQueue q x).jtag = s.jtag := rfl
@[simp] theorem State.setQueue_cores (q : Nat) (x : Queue) : (s.setQueue q x).cores = s.cores := rfl
@[simp] theorem State.setQueue_fresh (q : Nat) (x : Queue) : (s.setQueue q x).fresh = s.fresh := rfl
@[simp] theorem State.setQueue_out (q : Nat) (x : Queue) : (s.setQueue q x).out = s.out := rfl

/-! ### setWork -/

@[simp] theorem State.setWork_pending (q : Nat) (x : QueueWork) : (s.setWork q x).pending = s.pending := rfl
@[simp] theorem State.setWork_power (q : Nat) (x : QueueWork) : (s.setWork q x).power = s.power := rfl
@[simp] theorem State.setWork_life (q : Nat) (x : QueueWork) : (s.setWork q x).life = s.life := rfl
@[simp] theorem State.setWork_sensors (q : Nat) (x : QueueWork) : (s.setWork q x).sensors = s.sensors := rfl
@[simp] theorem State.setWork_ledger (q : Nat) (x : QueueWork) : (s.setWork q x).ledger = s.ledger := rfl
@[simp] theorem State.setWork_log (q : Nat) (x : QueueWork) : (s.setWork q x).log = s.log := rfl
@[simp] theorem State.setWork_uhleg (q : Nat) (x : QueueWork) : (s.setWork q x).uhleg = s.uhleg := rfl
@[simp] theorem State.setWork_update (q : Nat) (x : QueueWork) : (s.setWork q x).update = s.update := rfl
@[simp] theorem State.setWork_mailbox (q : Nat) (x : QueueWork) : (s.setWork q x).mailbox = s.mailbox := rfl
@[simp] theorem State.setWork_corePort (q : Nat) (x : QueueWork) : (s.setWork q x).corePort = s.corePort := rfl
@[simp] theorem State.setWork_can (q : Nat) (x : QueueWork) : (s.setWork q x).can = s.can := rfl
@[simp] theorem State.setWork_unlock (q : Nat) (x : QueueWork) : (s.setWork q x).unlock = s.unlock := rfl
@[simp] theorem State.setWork_fuses (q : Nat) (x : QueueWork) : (s.setWork q x).fuses = s.fuses := rfl
@[simp] theorem State.setWork_time (q : Nat) (x : QueueWork) : (s.setWork q x).time = s.time := rfl
@[simp] theorem State.setWork_mem (q : Nat) (x : QueueWork) : (s.setWork q x).mem = s.mem := rfl
@[simp] theorem State.setWork_memctl (q : Nat) (x : QueueWork) : (s.setWork q x).memctl = s.memctl := rfl
@[simp] theorem State.setWork_cache (q : Nat) (x : QueueWork) : (s.setWork q x).cache = s.cache := rfl
@[simp] theorem State.setWork_cells (q : Nat) (x : QueueWork) : (s.setWork q x).cells = s.cells := rfl
@[simp] theorem State.setWork_reed (q : Nat) (x : QueueWork) : (s.setWork q x).reed = s.reed := rfl
@[simp] theorem State.setWork_serve (q : Nat) (x : QueueWork) : (s.setWork q x).serve = s.serve := rfl
@[simp] theorem State.setWork_runtime (q : Nat) (x : QueueWork) : (s.setWork q x).runtime = s.runtime := rfl
@[simp] theorem State.setWork_tree (q : Nat) (x : QueueWork) : (s.setWork q x).tree = s.tree := rfl
@[simp] theorem State.setWork_ports (q : Nat) (x : QueueWork) : (s.setWork q x).ports = s.ports := rfl
@[simp] theorem State.setWork_links (q : Nat) (x : QueueWork) : (s.setWork q x).links = s.links := rfl
@[simp] theorem State.setWork_pcie (q : Nat) (x : QueueWork) : (s.setWork q x).pcie = s.pcie := rfl
@[simp] theorem State.setWork_jtag (q : Nat) (x : QueueWork) : (s.setWork q x).jtag = s.jtag := rfl
@[simp] theorem State.setWork_cores (q : Nat) (x : QueueWork) : (s.setWork q x).cores = s.cores := rfl
@[simp] theorem State.setWork_fresh (q : Nat) (x : QueueWork) : (s.setWork q x).fresh = s.fresh := rfl
@[simp] theorem State.setWork_out (q : Nat) (x : QueueWork) : (s.setWork q x).out = s.out := rfl

/-! ### setSubQueue -/

@[simp] theorem State.setSubQueue_pending (c q : Nat) (l : List SubEntry) : (s.setSubQueue c q l).pending = s.pending := rfl
@[simp] theorem State.setSubQueue_power (c q : Nat) (l : List SubEntry) : (s.setSubQueue c q l).power = s.power := rfl
@[simp] theorem State.setSubQueue_life (c q : Nat) (l : List SubEntry) : (s.setSubQueue c q l).life = s.life := rfl
@[simp] theorem State.setSubQueue_sensors (c q : Nat) (l : List SubEntry) : (s.setSubQueue c q l).sensors = s.sensors := rfl
@[simp] theorem State.setSubQueue_ledger (c q : Nat) (l : List SubEntry) : (s.setSubQueue c q l).ledger = s.ledger := rfl
@[simp] theorem State.setSubQueue_log (c q : Nat) (l : List SubEntry) : (s.setSubQueue c q l).log = s.log := rfl
@[simp] theorem State.setSubQueue_uhleg (c q : Nat) (l : List SubEntry) : (s.setSubQueue c q l).uhleg = s.uhleg := rfl
@[simp] theorem State.setSubQueue_update (c q : Nat) (l : List SubEntry) : (s.setSubQueue c q l).update = s.update := rfl
@[simp] theorem State.setSubQueue_mailbox (c q : Nat) (l : List SubEntry) : (s.setSubQueue c q l).mailbox = s.mailbox := rfl
@[simp] theorem State.setSubQueue_corePort (c q : Nat) (l : List SubEntry) : (s.setSubQueue c q l).corePort = s.corePort := rfl
@[simp] theorem State.setSubQueue_can (c q : Nat) (l : List SubEntry) : (s.setSubQueue c q l).can = s.can := rfl
@[simp] theorem State.setSubQueue_unlock (c q : Nat) (l : List SubEntry) : (s.setSubQueue c q l).unlock = s.unlock := rfl
@[simp] theorem State.setSubQueue_fuses (c q : Nat) (l : List SubEntry) : (s.setSubQueue c q l).fuses = s.fuses := rfl
@[simp] theorem State.setSubQueue_time (c q : Nat) (l : List SubEntry) : (s.setSubQueue c q l).time = s.time := rfl
@[simp] theorem State.setSubQueue_mem (c q : Nat) (l : List SubEntry) : (s.setSubQueue c q l).mem = s.mem := rfl
@[simp] theorem State.setSubQueue_memctl (c q : Nat) (l : List SubEntry) : (s.setSubQueue c q l).memctl = s.memctl := rfl
@[simp] theorem State.setSubQueue_cache (c q : Nat) (l : List SubEntry) : (s.setSubQueue c q l).cache = s.cache := rfl
@[simp] theorem State.setSubQueue_cells (c q : Nat) (l : List SubEntry) : (s.setSubQueue c q l).cells = s.cells := rfl
@[simp] theorem State.setSubQueue_reed (c q : Nat) (l : List SubEntry) : (s.setSubQueue c q l).reed = s.reed := rfl
@[simp] theorem State.setSubQueue_serve (c q : Nat) (l : List SubEntry) : (s.setSubQueue c q l).serve = s.serve := rfl
@[simp] theorem State.setSubQueue_runtime (c q : Nat) (l : List SubEntry) : (s.setSubQueue c q l).runtime = s.runtime := rfl
@[simp] theorem State.setSubQueue_tree (c q : Nat) (l : List SubEntry) : (s.setSubQueue c q l).tree = s.tree := rfl
@[simp] theorem State.setSubQueue_ports (c q : Nat) (l : List SubEntry) : (s.setSubQueue c q l).ports = s.ports := rfl
@[simp] theorem State.setSubQueue_links (c q : Nat) (l : List SubEntry) : (s.setSubQueue c q l).links = s.links := rfl
@[simp] theorem State.setSubQueue_pcie (c q : Nat) (l : List SubEntry) : (s.setSubQueue c q l).pcie = s.pcie := rfl
@[simp] theorem State.setSubQueue_jtag (c q : Nat) (l : List SubEntry) : (s.setSubQueue c q l).jtag = s.jtag := rfl
@[simp] theorem State.setSubQueue_cores (c q : Nat) (l : List SubEntry) : (s.setSubQueue c q l).cores = s.cores := rfl
@[simp] theorem State.setSubQueue_fresh (c q : Nat) (l : List SubEntry) : (s.setSubQueue c q l).fresh = s.fresh := rfl
@[simp] theorem State.setSubQueue_out (c q : Nat) (l : List SubEntry) : (s.setSubQueue c q l).out = s.out := rfl

/-! ### setSequencer -/

@[simp] theorem State.setSequencer_pending (c : Nat) (x : Sequencer) : (s.setSequencer c x).pending = s.pending := rfl
@[simp] theorem State.setSequencer_power (c : Nat) (x : Sequencer) : (s.setSequencer c x).power = s.power := rfl
@[simp] theorem State.setSequencer_life (c : Nat) (x : Sequencer) : (s.setSequencer c x).life = s.life := rfl
@[simp] theorem State.setSequencer_sensors (c : Nat) (x : Sequencer) : (s.setSequencer c x).sensors = s.sensors := rfl
@[simp] theorem State.setSequencer_ledger (c : Nat) (x : Sequencer) : (s.setSequencer c x).ledger = s.ledger := rfl
@[simp] theorem State.setSequencer_log (c : Nat) (x : Sequencer) : (s.setSequencer c x).log = s.log := rfl
@[simp] theorem State.setSequencer_uhleg (c : Nat) (x : Sequencer) : (s.setSequencer c x).uhleg = s.uhleg := rfl
@[simp] theorem State.setSequencer_update (c : Nat) (x : Sequencer) : (s.setSequencer c x).update = s.update := rfl
@[simp] theorem State.setSequencer_mailbox (c : Nat) (x : Sequencer) : (s.setSequencer c x).mailbox = s.mailbox := rfl
@[simp] theorem State.setSequencer_corePort (c : Nat) (x : Sequencer) : (s.setSequencer c x).corePort = s.corePort := rfl
@[simp] theorem State.setSequencer_can (c : Nat) (x : Sequencer) : (s.setSequencer c x).can = s.can := rfl
@[simp] theorem State.setSequencer_unlock (c : Nat) (x : Sequencer) : (s.setSequencer c x).unlock = s.unlock := rfl
@[simp] theorem State.setSequencer_fuses (c : Nat) (x : Sequencer) : (s.setSequencer c x).fuses = s.fuses := rfl
@[simp] theorem State.setSequencer_time (c : Nat) (x : Sequencer) : (s.setSequencer c x).time = s.time := rfl
@[simp] theorem State.setSequencer_mem (c : Nat) (x : Sequencer) : (s.setSequencer c x).mem = s.mem := rfl
@[simp] theorem State.setSequencer_memctl (c : Nat) (x : Sequencer) : (s.setSequencer c x).memctl = s.memctl := rfl
@[simp] theorem State.setSequencer_cache (c : Nat) (x : Sequencer) : (s.setSequencer c x).cache = s.cache := rfl
@[simp] theorem State.setSequencer_cells (c : Nat) (x : Sequencer) : (s.setSequencer c x).cells = s.cells := rfl
@[simp] theorem State.setSequencer_reed (c : Nat) (x : Sequencer) : (s.setSequencer c x).reed = s.reed := rfl
@[simp] theorem State.setSequencer_serve (c : Nat) (x : Sequencer) : (s.setSequencer c x).serve = s.serve := rfl
@[simp] theorem State.setSequencer_runtime (c : Nat) (x : Sequencer) : (s.setSequencer c x).runtime = s.runtime := rfl
@[simp] theorem State.setSequencer_tree (c : Nat) (x : Sequencer) : (s.setSequencer c x).tree = s.tree := rfl
@[simp] theorem State.setSequencer_ports (c : Nat) (x : Sequencer) : (s.setSequencer c x).ports = s.ports := rfl
@[simp] theorem State.setSequencer_links (c : Nat) (x : Sequencer) : (s.setSequencer c x).links = s.links := rfl
@[simp] theorem State.setSequencer_pcie (c : Nat) (x : Sequencer) : (s.setSequencer c x).pcie = s.pcie := rfl
@[simp] theorem State.setSequencer_jtag (c : Nat) (x : Sequencer) : (s.setSequencer c x).jtag = s.jtag := rfl
@[simp] theorem State.setSequencer_cores (c : Nat) (x : Sequencer) : (s.setSequencer c x).cores = s.cores := rfl
@[simp] theorem State.setSequencer_fresh (c : Nat) (x : Sequencer) : (s.setSequencer c x).fresh = s.fresh := rfl
@[simp] theorem State.setSequencer_out (c : Nat) (x : Sequencer) : (s.setSequencer c x).out = s.out := rfl

/-! ### setCounter -/

@[simp] theorem State.setCounter_pending (c : Nat) (x : Counter) : (s.setCounter c x).pending = s.pending := rfl
@[simp] theorem State.setCounter_power (c : Nat) (x : Counter) : (s.setCounter c x).power = s.power := rfl
@[simp] theorem State.setCounter_life (c : Nat) (x : Counter) : (s.setCounter c x).life = s.life := rfl
@[simp] theorem State.setCounter_sensors (c : Nat) (x : Counter) : (s.setCounter c x).sensors = s.sensors := rfl
@[simp] theorem State.setCounter_ledger (c : Nat) (x : Counter) : (s.setCounter c x).ledger = s.ledger := rfl
@[simp] theorem State.setCounter_log (c : Nat) (x : Counter) : (s.setCounter c x).log = s.log := rfl
@[simp] theorem State.setCounter_uhleg (c : Nat) (x : Counter) : (s.setCounter c x).uhleg = s.uhleg := rfl
@[simp] theorem State.setCounter_update (c : Nat) (x : Counter) : (s.setCounter c x).update = s.update := rfl
@[simp] theorem State.setCounter_mailbox (c : Nat) (x : Counter) : (s.setCounter c x).mailbox = s.mailbox := rfl
@[simp] theorem State.setCounter_corePort (c : Nat) (x : Counter) : (s.setCounter c x).corePort = s.corePort := rfl
@[simp] theorem State.setCounter_can (c : Nat) (x : Counter) : (s.setCounter c x).can = s.can := rfl
@[simp] theorem State.setCounter_unlock (c : Nat) (x : Counter) : (s.setCounter c x).unlock = s.unlock := rfl
@[simp] theorem State.setCounter_fuses (c : Nat) (x : Counter) : (s.setCounter c x).fuses = s.fuses := rfl
@[simp] theorem State.setCounter_time (c : Nat) (x : Counter) : (s.setCounter c x).time = s.time := rfl
@[simp] theorem State.setCounter_mem (c : Nat) (x : Counter) : (s.setCounter c x).mem = s.mem := rfl
@[simp] theorem State.setCounter_memctl (c : Nat) (x : Counter) : (s.setCounter c x).memctl = s.memctl := rfl
@[simp] theorem State.setCounter_cache (c : Nat) (x : Counter) : (s.setCounter c x).cache = s.cache := rfl
@[simp] theorem State.setCounter_cells (c : Nat) (x : Counter) : (s.setCounter c x).cells = s.cells := rfl
@[simp] theorem State.setCounter_reed (c : Nat) (x : Counter) : (s.setCounter c x).reed = s.reed := rfl
@[simp] theorem State.setCounter_serve (c : Nat) (x : Counter) : (s.setCounter c x).serve = s.serve := rfl
@[simp] theorem State.setCounter_runtime (c : Nat) (x : Counter) : (s.setCounter c x).runtime = s.runtime := rfl
@[simp] theorem State.setCounter_tree (c : Nat) (x : Counter) : (s.setCounter c x).tree = s.tree := rfl
@[simp] theorem State.setCounter_ports (c : Nat) (x : Counter) : (s.setCounter c x).ports = s.ports := rfl
@[simp] theorem State.setCounter_links (c : Nat) (x : Counter) : (s.setCounter c x).links = s.links := rfl
@[simp] theorem State.setCounter_pcie (c : Nat) (x : Counter) : (s.setCounter c x).pcie = s.pcie := rfl
@[simp] theorem State.setCounter_jtag (c : Nat) (x : Counter) : (s.setCounter c x).jtag = s.jtag := rfl
@[simp] theorem State.setCounter_cores (c : Nat) (x : Counter) : (s.setCounter c x).cores = s.cores := rfl
@[simp] theorem State.setCounter_fresh (c : Nat) (x : Counter) : (s.setCounter c x).fresh = s.fresh := rfl
@[simp] theorem State.setCounter_out (c : Nat) (x : Counter) : (s.setCounter c x).out = s.out := rfl

/-! ### bufWrite -/

@[simp] theorem State.bufWrite_pending (c off : Nat) (l : List Byte) : (s.bufWrite c off l).pending = s.pending := rfl
@[simp] theorem State.bufWrite_power (c off : Nat) (l : List Byte) : (s.bufWrite c off l).power = s.power := rfl
@[simp] theorem State.bufWrite_life (c off : Nat) (l : List Byte) : (s.bufWrite c off l).life = s.life := rfl
@[simp] theorem State.bufWrite_sensors (c off : Nat) (l : List Byte) : (s.bufWrite c off l).sensors = s.sensors := rfl
@[simp] theorem State.bufWrite_ledger (c off : Nat) (l : List Byte) : (s.bufWrite c off l).ledger = s.ledger := rfl
@[simp] theorem State.bufWrite_log (c off : Nat) (l : List Byte) : (s.bufWrite c off l).log = s.log := rfl
@[simp] theorem State.bufWrite_uhleg (c off : Nat) (l : List Byte) : (s.bufWrite c off l).uhleg = s.uhleg := rfl
@[simp] theorem State.bufWrite_update (c off : Nat) (l : List Byte) : (s.bufWrite c off l).update = s.update := rfl
@[simp] theorem State.bufWrite_mailbox (c off : Nat) (l : List Byte) : (s.bufWrite c off l).mailbox = s.mailbox := rfl
@[simp] theorem State.bufWrite_corePort (c off : Nat) (l : List Byte) : (s.bufWrite c off l).corePort = s.corePort := rfl
@[simp] theorem State.bufWrite_can (c off : Nat) (l : List Byte) : (s.bufWrite c off l).can = s.can := rfl
@[simp] theorem State.bufWrite_unlock (c off : Nat) (l : List Byte) : (s.bufWrite c off l).unlock = s.unlock := rfl
@[simp] theorem State.bufWrite_fuses (c off : Nat) (l : List Byte) : (s.bufWrite c off l).fuses = s.fuses := rfl
@[simp] theorem State.bufWrite_time (c off : Nat) (l : List Byte) : (s.bufWrite c off l).time = s.time := rfl
@[simp] theorem State.bufWrite_mem (c off : Nat) (l : List Byte) : (s.bufWrite c off l).mem = s.mem := rfl
@[simp] theorem State.bufWrite_memctl (c off : Nat) (l : List Byte) : (s.bufWrite c off l).memctl = s.memctl := rfl
@[simp] theorem State.bufWrite_cache (c off : Nat) (l : List Byte) : (s.bufWrite c off l).cache = s.cache := rfl
@[simp] theorem State.bufWrite_reed (c off : Nat) (l : List Byte) : (s.bufWrite c off l).reed = s.reed := rfl
@[simp] theorem State.bufWrite_front (c off : Nat) (l : List Byte) : (s.bufWrite c off l).front = s.front := rfl
@[simp] theorem State.bufWrite_serve (c off : Nat) (l : List Byte) : (s.bufWrite c off l).serve = s.serve := rfl
@[simp] theorem State.bufWrite_runtime (c off : Nat) (l : List Byte) : (s.bufWrite c off l).runtime = s.runtime := rfl
@[simp] theorem State.bufWrite_tree (c off : Nat) (l : List Byte) : (s.bufWrite c off l).tree = s.tree := rfl
@[simp] theorem State.bufWrite_ports (c off : Nat) (l : List Byte) : (s.bufWrite c off l).ports = s.ports := rfl
@[simp] theorem State.bufWrite_links (c off : Nat) (l : List Byte) : (s.bufWrite c off l).links = s.links := rfl
@[simp] theorem State.bufWrite_pcie (c off : Nat) (l : List Byte) : (s.bufWrite c off l).pcie = s.pcie := rfl
@[simp] theorem State.bufWrite_jtag (c off : Nat) (l : List Byte) : (s.bufWrite c off l).jtag = s.jtag := rfl
@[simp] theorem State.bufWrite_cores (c off : Nat) (l : List Byte) : (s.bufWrite c off l).cores = s.cores := rfl
@[simp] theorem State.bufWrite_fresh (c off : Nat) (l : List Byte) : (s.bufWrite c off l).fresh = s.fresh := rfl
@[simp] theorem State.bufWrite_out (c off : Nat) (l : List Byte) : (s.bufWrite c off l).out = s.out := rfl

/-! ### setAccRow -/

@[simp] theorem State.setAccRow_pending (c lane col : Nat) (l : List F32) : (s.setAccRow c lane col l).pending = s.pending :=
  rfl
@[simp] theorem State.setAccRow_power (c lane col : Nat) (l : List F32) : (s.setAccRow c lane col l).power = s.power := rfl
@[simp] theorem State.setAccRow_life (c lane col : Nat) (l : List F32) : (s.setAccRow c lane col l).life = s.life := rfl
@[simp] theorem State.setAccRow_sensors (c lane col : Nat) (l : List F32) : (s.setAccRow c lane col l).sensors = s.sensors :=
  rfl
@[simp] theorem State.setAccRow_ledger (c lane col : Nat) (l : List F32) : (s.setAccRow c lane col l).ledger = s.ledger :=
  rfl
@[simp] theorem State.setAccRow_log (c lane col : Nat) (l : List F32) : (s.setAccRow c lane col l).log = s.log := rfl
@[simp] theorem State.setAccRow_uhleg (c lane col : Nat) (l : List F32) : (s.setAccRow c lane col l).uhleg = s.uhleg := rfl
@[simp] theorem State.setAccRow_update (c lane col : Nat) (l : List F32) : (s.setAccRow c lane col l).update = s.update :=
  rfl
@[simp] theorem State.setAccRow_mailbox (c lane col : Nat) (l : List F32) : (s.setAccRow c lane col l).mailbox = s.mailbox :=
  rfl
@[simp] theorem State.setAccRow_corePort (c lane col : Nat) (l : List F32) : (s.setAccRow c lane col l).corePort = s.corePort :=
  rfl
@[simp] theorem State.setAccRow_can (c lane col : Nat) (l : List F32) : (s.setAccRow c lane col l).can = s.can := rfl
@[simp] theorem State.setAccRow_unlock (c lane col : Nat) (l : List F32) : (s.setAccRow c lane col l).unlock = s.unlock :=
  rfl
@[simp] theorem State.setAccRow_fuses (c lane col : Nat) (l : List F32) : (s.setAccRow c lane col l).fuses = s.fuses := rfl
@[simp] theorem State.setAccRow_time (c lane col : Nat) (l : List F32) : (s.setAccRow c lane col l).time = s.time := rfl
@[simp] theorem State.setAccRow_mem (c lane col : Nat) (l : List F32) : (s.setAccRow c lane col l).mem = s.mem := rfl
@[simp] theorem State.setAccRow_memctl (c lane col : Nat) (l : List F32) : (s.setAccRow c lane col l).memctl = s.memctl :=
  rfl
@[simp] theorem State.setAccRow_cache (c lane col : Nat) (l : List F32) : (s.setAccRow c lane col l).cache = s.cache := rfl
@[simp] theorem State.setAccRow_reed (c lane col : Nat) (l : List F32) : (s.setAccRow c lane col l).reed = s.reed := rfl
@[simp] theorem State.setAccRow_front (c lane col : Nat) (l : List F32) : (s.setAccRow c lane col l).front = s.front := rfl
@[simp] theorem State.setAccRow_serve (c lane col : Nat) (l : List F32) : (s.setAccRow c lane col l).serve = s.serve := rfl
@[simp] theorem State.setAccRow_runtime (c lane col : Nat) (l : List F32) : (s.setAccRow c lane col l).runtime = s.runtime :=
  rfl
@[simp] theorem State.setAccRow_tree (c lane col : Nat) (l : List F32) : (s.setAccRow c lane col l).tree = s.tree := rfl
@[simp] theorem State.setAccRow_ports (c lane col : Nat) (l : List F32) : (s.setAccRow c lane col l).ports = s.ports := rfl
@[simp] theorem State.setAccRow_links (c lane col : Nat) (l : List F32) : (s.setAccRow c lane col l).links = s.links := rfl
@[simp] theorem State.setAccRow_pcie (c lane col : Nat) (l : List F32) : (s.setAccRow c lane col l).pcie = s.pcie := rfl
@[simp] theorem State.setAccRow_jtag (c lane col : Nat) (l : List F32) : (s.setAccRow c lane col l).jtag = s.jtag := rfl
@[simp] theorem State.setAccRow_cores (c lane col : Nat) (l : List F32) : (s.setAccRow c lane col l).cores = s.cores := rfl
@[simp] theorem State.setAccRow_fresh (c lane col : Nat) (l : List F32) : (s.setAccRow c lane col l).fresh = s.fresh := rfl
@[simp] theorem State.setAccRow_out (c lane col : Nat) (l : List F32) : (s.setAccRow c lane col l).out = s.out := rfl

/-! ### setStat -/

@[simp] theorem State.setStat_pending (c row : Nat) (x : StatRow) : (s.setStat c row x).pending = s.pending := rfl
@[simp] theorem State.setStat_power (c row : Nat) (x : StatRow) : (s.setStat c row x).power = s.power := rfl
@[simp] theorem State.setStat_life (c row : Nat) (x : StatRow) : (s.setStat c row x).life = s.life := rfl
@[simp] theorem State.setStat_sensors (c row : Nat) (x : StatRow) : (s.setStat c row x).sensors = s.sensors := rfl
@[simp] theorem State.setStat_ledger (c row : Nat) (x : StatRow) : (s.setStat c row x).ledger = s.ledger := rfl
@[simp] theorem State.setStat_log (c row : Nat) (x : StatRow) : (s.setStat c row x).log = s.log := rfl
@[simp] theorem State.setStat_uhleg (c row : Nat) (x : StatRow) : (s.setStat c row x).uhleg = s.uhleg := rfl
@[simp] theorem State.setStat_update (c row : Nat) (x : StatRow) : (s.setStat c row x).update = s.update := rfl
@[simp] theorem State.setStat_mailbox (c row : Nat) (x : StatRow) : (s.setStat c row x).mailbox = s.mailbox := rfl
@[simp] theorem State.setStat_corePort (c row : Nat) (x : StatRow) : (s.setStat c row x).corePort = s.corePort := rfl
@[simp] theorem State.setStat_can (c row : Nat) (x : StatRow) : (s.setStat c row x).can = s.can := rfl
@[simp] theorem State.setStat_unlock (c row : Nat) (x : StatRow) : (s.setStat c row x).unlock = s.unlock := rfl
@[simp] theorem State.setStat_fuses (c row : Nat) (x : StatRow) : (s.setStat c row x).fuses = s.fuses := rfl
@[simp] theorem State.setStat_time (c row : Nat) (x : StatRow) : (s.setStat c row x).time = s.time := rfl
@[simp] theorem State.setStat_mem (c row : Nat) (x : StatRow) : (s.setStat c row x).mem = s.mem := rfl
@[simp] theorem State.setStat_memctl (c row : Nat) (x : StatRow) : (s.setStat c row x).memctl = s.memctl := rfl
@[simp] theorem State.setStat_cache (c row : Nat) (x : StatRow) : (s.setStat c row x).cache = s.cache := rfl
@[simp] theorem State.setStat_reed (c row : Nat) (x : StatRow) : (s.setStat c row x).reed = s.reed := rfl
@[simp] theorem State.setStat_front (c row : Nat) (x : StatRow) : (s.setStat c row x).front = s.front := rfl
@[simp] theorem State.setStat_serve (c row : Nat) (x : StatRow) : (s.setStat c row x).serve = s.serve := rfl
@[simp] theorem State.setStat_runtime (c row : Nat) (x : StatRow) : (s.setStat c row x).runtime = s.runtime := rfl
@[simp] theorem State.setStat_tree (c row : Nat) (x : StatRow) : (s.setStat c row x).tree = s.tree := rfl
@[simp] theorem State.setStat_ports (c row : Nat) (x : StatRow) : (s.setStat c row x).ports = s.ports := rfl
@[simp] theorem State.setStat_links (c row : Nat) (x : StatRow) : (s.setStat c row x).links = s.links := rfl
@[simp] theorem State.setStat_pcie (c row : Nat) (x : StatRow) : (s.setStat c row x).pcie = s.pcie := rfl
@[simp] theorem State.setStat_jtag (c row : Nat) (x : StatRow) : (s.setStat c row x).jtag = s.jtag := rfl
@[simp] theorem State.setStat_cores (c row : Nat) (x : StatRow) : (s.setStat c row x).cores = s.cores := rfl
@[simp] theorem State.setStat_fresh (c row : Nat) (x : StatRow) : (s.setStat c row x).fresh = s.fresh := rfl
@[simp] theorem State.setStat_out (c row : Nat) (x : StatRow) : (s.setStat c row x).out = s.out := rfl

/-! ### setReedOps -/

@[simp] theorem State.setReedOps_pending (c : Nat) (l : List ReedOp) : (s.setReedOps c l).pending = s.pending := rfl
@[simp] theorem State.setReedOps_power (c : Nat) (l : List ReedOp) : (s.setReedOps c l).power = s.power := rfl
@[simp] theorem State.setReedOps_life (c : Nat) (l : List ReedOp) : (s.setReedOps c l).life = s.life := rfl
@[simp] theorem State.setReedOps_sensors (c : Nat) (l : List ReedOp) : (s.setReedOps c l).sensors = s.sensors := rfl
@[simp] theorem State.setReedOps_ledger (c : Nat) (l : List ReedOp) : (s.setReedOps c l).ledger = s.ledger := rfl
@[simp] theorem State.setReedOps_log (c : Nat) (l : List ReedOp) : (s.setReedOps c l).log = s.log := rfl
@[simp] theorem State.setReedOps_uhleg (c : Nat) (l : List ReedOp) : (s.setReedOps c l).uhleg = s.uhleg := rfl
@[simp] theorem State.setReedOps_update (c : Nat) (l : List ReedOp) : (s.setReedOps c l).update = s.update := rfl
@[simp] theorem State.setReedOps_mailbox (c : Nat) (l : List ReedOp) : (s.setReedOps c l).mailbox = s.mailbox := rfl
@[simp] theorem State.setReedOps_corePort (c : Nat) (l : List ReedOp) : (s.setReedOps c l).corePort = s.corePort := rfl
@[simp] theorem State.setReedOps_can (c : Nat) (l : List ReedOp) : (s.setReedOps c l).can = s.can := rfl
@[simp] theorem State.setReedOps_unlock (c : Nat) (l : List ReedOp) : (s.setReedOps c l).unlock = s.unlock := rfl
@[simp] theorem State.setReedOps_fuses (c : Nat) (l : List ReedOp) : (s.setReedOps c l).fuses = s.fuses := rfl
@[simp] theorem State.setReedOps_time (c : Nat) (l : List ReedOp) : (s.setReedOps c l).time = s.time := rfl
@[simp] theorem State.setReedOps_mem (c : Nat) (l : List ReedOp) : (s.setReedOps c l).mem = s.mem := rfl
@[simp] theorem State.setReedOps_memctl (c : Nat) (l : List ReedOp) : (s.setReedOps c l).memctl = s.memctl := rfl
@[simp] theorem State.setReedOps_cache (c : Nat) (l : List ReedOp) : (s.setReedOps c l).cache = s.cache := rfl
@[simp] theorem State.setReedOps_cells (c : Nat) (l : List ReedOp) : (s.setReedOps c l).cells = s.cells := rfl
@[simp] theorem State.setReedOps_front (c : Nat) (l : List ReedOp) : (s.setReedOps c l).front = s.front := rfl
@[simp] theorem State.setReedOps_serve (c : Nat) (l : List ReedOp) : (s.setReedOps c l).serve = s.serve := rfl
@[simp] theorem State.setReedOps_runtime (c : Nat) (l : List ReedOp) : (s.setReedOps c l).runtime = s.runtime := rfl
@[simp] theorem State.setReedOps_tree (c : Nat) (l : List ReedOp) : (s.setReedOps c l).tree = s.tree := rfl
@[simp] theorem State.setReedOps_ports (c : Nat) (l : List ReedOp) : (s.setReedOps c l).ports = s.ports := rfl
@[simp] theorem State.setReedOps_links (c : Nat) (l : List ReedOp) : (s.setReedOps c l).links = s.links := rfl
@[simp] theorem State.setReedOps_pcie (c : Nat) (l : List ReedOp) : (s.setReedOps c l).pcie = s.pcie := rfl
@[simp] theorem State.setReedOps_jtag (c : Nat) (l : List ReedOp) : (s.setReedOps c l).jtag = s.jtag := rfl
@[simp] theorem State.setReedOps_cores (c : Nat) (l : List ReedOp) : (s.setReedOps c l).cores = s.cores := rfl
@[simp] theorem State.setReedOps_fresh (c : Nat) (l : List ReedOp) : (s.setReedOps c l).fresh = s.fresh := rfl
@[simp] theorem State.setReedOps_out (c : Nat) (l : List ReedOp) : (s.setReedOps c l).out = s.out := rfl

/-! ### setHealth -/

@[simp] theorem State.setHealth_pending (c : Nat) (h : ReedHealth) : (s.setHealth c h).pending = s.pending := rfl
@[simp] theorem State.setHealth_power (c : Nat) (h : ReedHealth) : (s.setHealth c h).power = s.power := rfl
@[simp] theorem State.setHealth_life (c : Nat) (h : ReedHealth) : (s.setHealth c h).life = s.life := rfl
@[simp] theorem State.setHealth_sensors (c : Nat) (h : ReedHealth) : (s.setHealth c h).sensors = s.sensors := rfl
@[simp] theorem State.setHealth_ledger (c : Nat) (h : ReedHealth) : (s.setHealth c h).ledger = s.ledger := rfl
@[simp] theorem State.setHealth_log (c : Nat) (h : ReedHealth) : (s.setHealth c h).log = s.log := rfl
@[simp] theorem State.setHealth_uhleg (c : Nat) (h : ReedHealth) : (s.setHealth c h).uhleg = s.uhleg := rfl
@[simp] theorem State.setHealth_update (c : Nat) (h : ReedHealth) : (s.setHealth c h).update = s.update := rfl
@[simp] theorem State.setHealth_mailbox (c : Nat) (h : ReedHealth) : (s.setHealth c h).mailbox = s.mailbox := rfl
@[simp] theorem State.setHealth_corePort (c : Nat) (h : ReedHealth) : (s.setHealth c h).corePort = s.corePort := rfl
@[simp] theorem State.setHealth_can (c : Nat) (h : ReedHealth) : (s.setHealth c h).can = s.can := rfl
@[simp] theorem State.setHealth_unlock (c : Nat) (h : ReedHealth) : (s.setHealth c h).unlock = s.unlock := rfl
@[simp] theorem State.setHealth_fuses (c : Nat) (h : ReedHealth) : (s.setHealth c h).fuses = s.fuses := rfl
@[simp] theorem State.setHealth_time (c : Nat) (h : ReedHealth) : (s.setHealth c h).time = s.time := rfl
@[simp] theorem State.setHealth_mem (c : Nat) (h : ReedHealth) : (s.setHealth c h).mem = s.mem := rfl
@[simp] theorem State.setHealth_memctl (c : Nat) (h : ReedHealth) : (s.setHealth c h).memctl = s.memctl := rfl
@[simp] theorem State.setHealth_cache (c : Nat) (h : ReedHealth) : (s.setHealth c h).cache = s.cache := rfl
@[simp] theorem State.setHealth_cells (c : Nat) (h : ReedHealth) : (s.setHealth c h).cells = s.cells := rfl
@[simp] theorem State.setHealth_front (c : Nat) (h : ReedHealth) : (s.setHealth c h).front = s.front := rfl
@[simp] theorem State.setHealth_serve (c : Nat) (h : ReedHealth) : (s.setHealth c h).serve = s.serve := rfl
@[simp] theorem State.setHealth_runtime (c : Nat) (h : ReedHealth) : (s.setHealth c h).runtime = s.runtime := rfl
@[simp] theorem State.setHealth_tree (c : Nat) (h : ReedHealth) : (s.setHealth c h).tree = s.tree := rfl
@[simp] theorem State.setHealth_ports (c : Nat) (h : ReedHealth) : (s.setHealth c h).ports = s.ports := rfl
@[simp] theorem State.setHealth_links (c : Nat) (h : ReedHealth) : (s.setHealth c h).links = s.links := rfl
@[simp] theorem State.setHealth_pcie (c : Nat) (h : ReedHealth) : (s.setHealth c h).pcie = s.pcie := rfl
@[simp] theorem State.setHealth_jtag (c : Nat) (h : ReedHealth) : (s.setHealth c h).jtag = s.jtag := rfl
@[simp] theorem State.setHealth_cores (c : Nat) (h : ReedHealth) : (s.setHealth c h).cores = s.cores := rfl
@[simp] theorem State.setHealth_fresh (c : Nat) (h : ReedHealth) : (s.setHealth c h).fresh = s.fresh := rfl
@[simp] theorem State.setHealth_out (c : Nat) (h : ReedHealth) : (s.setHealth c h).out = s.out := rfl

/-! ### setChannel -/

@[simp] theorem State.setChannel_pending (c : Nat) (x : Channel) : (s.setChannel c x).pending = s.pending := rfl
@[simp] theorem State.setChannel_power (c : Nat) (x : Channel) : (s.setChannel c x).power = s.power := rfl
@[simp] theorem State.setChannel_life (c : Nat) (x : Channel) : (s.setChannel c x).life = s.life := rfl
@[simp] theorem State.setChannel_sensors (c : Nat) (x : Channel) : (s.setChannel c x).sensors = s.sensors := rfl
@[simp] theorem State.setChannel_ledger (c : Nat) (x : Channel) : (s.setChannel c x).ledger = s.ledger := rfl
@[simp] theorem State.setChannel_log (c : Nat) (x : Channel) : (s.setChannel c x).log = s.log := rfl
@[simp] theorem State.setChannel_uhleg (c : Nat) (x : Channel) : (s.setChannel c x).uhleg = s.uhleg := rfl
@[simp] theorem State.setChannel_update (c : Nat) (x : Channel) : (s.setChannel c x).update = s.update := rfl
@[simp] theorem State.setChannel_mailbox (c : Nat) (x : Channel) : (s.setChannel c x).mailbox = s.mailbox := rfl
@[simp] theorem State.setChannel_corePort (c : Nat) (x : Channel) : (s.setChannel c x).corePort = s.corePort := rfl
@[simp] theorem State.setChannel_can (c : Nat) (x : Channel) : (s.setChannel c x).can = s.can := rfl
@[simp] theorem State.setChannel_unlock (c : Nat) (x : Channel) : (s.setChannel c x).unlock = s.unlock := rfl
@[simp] theorem State.setChannel_fuses (c : Nat) (x : Channel) : (s.setChannel c x).fuses = s.fuses := rfl
@[simp] theorem State.setChannel_time (c : Nat) (x : Channel) : (s.setChannel c x).time = s.time := rfl
@[simp] theorem State.setChannel_mem (c : Nat) (x : Channel) : (s.setChannel c x).mem = s.mem := rfl
@[simp] theorem State.setChannel_cache (c : Nat) (x : Channel) : (s.setChannel c x).cache = s.cache := rfl
@[simp] theorem State.setChannel_cells (c : Nat) (x : Channel) : (s.setChannel c x).cells = s.cells := rfl
@[simp] theorem State.setChannel_reed (c : Nat) (x : Channel) : (s.setChannel c x).reed = s.reed := rfl
@[simp] theorem State.setChannel_front (c : Nat) (x : Channel) : (s.setChannel c x).front = s.front := rfl
@[simp] theorem State.setChannel_serve (c : Nat) (x : Channel) : (s.setChannel c x).serve = s.serve := rfl
@[simp] theorem State.setChannel_runtime (c : Nat) (x : Channel) : (s.setChannel c x).runtime = s.runtime := rfl
@[simp] theorem State.setChannel_tree (c : Nat) (x : Channel) : (s.setChannel c x).tree = s.tree := rfl
@[simp] theorem State.setChannel_ports (c : Nat) (x : Channel) : (s.setChannel c x).ports = s.ports := rfl
@[simp] theorem State.setChannel_links (c : Nat) (x : Channel) : (s.setChannel c x).links = s.links := rfl
@[simp] theorem State.setChannel_pcie (c : Nat) (x : Channel) : (s.setChannel c x).pcie = s.pcie := rfl
@[simp] theorem State.setChannel_jtag (c : Nat) (x : Channel) : (s.setChannel c x).jtag = s.jtag := rfl
@[simp] theorem State.setChannel_cores (c : Nat) (x : Channel) : (s.setChannel c x).cores = s.cores := rfl
@[simp] theorem State.setChannel_fresh (c : Nat) (x : Channel) : (s.setChannel c x).fresh = s.fresh := rfl
@[simp] theorem State.setChannel_out (c : Nat) (x : Channel) : (s.setChannel c x).out = s.out := rfl

/-! ### setSensor -/

@[simp] theorem State.setSensor_pending (n : Nat) (x : SensorState) : (s.setSensor n x).pending = s.pending := rfl
@[simp] theorem State.setSensor_power (n : Nat) (x : SensorState) : (s.setSensor n x).power = s.power := rfl
@[simp] theorem State.setSensor_life (n : Nat) (x : SensorState) : (s.setSensor n x).life = s.life := rfl
@[simp] theorem State.setSensor_ledger (n : Nat) (x : SensorState) : (s.setSensor n x).ledger = s.ledger := rfl
@[simp] theorem State.setSensor_log (n : Nat) (x : SensorState) : (s.setSensor n x).log = s.log := rfl
@[simp] theorem State.setSensor_uhleg (n : Nat) (x : SensorState) : (s.setSensor n x).uhleg = s.uhleg := rfl
@[simp] theorem State.setSensor_update (n : Nat) (x : SensorState) : (s.setSensor n x).update = s.update := rfl
@[simp] theorem State.setSensor_mailbox (n : Nat) (x : SensorState) : (s.setSensor n x).mailbox = s.mailbox := rfl
@[simp] theorem State.setSensor_corePort (n : Nat) (x : SensorState) : (s.setSensor n x).corePort = s.corePort := rfl
@[simp] theorem State.setSensor_can (n : Nat) (x : SensorState) : (s.setSensor n x).can = s.can := rfl
@[simp] theorem State.setSensor_unlock (n : Nat) (x : SensorState) : (s.setSensor n x).unlock = s.unlock := rfl
@[simp] theorem State.setSensor_fuses (n : Nat) (x : SensorState) : (s.setSensor n x).fuses = s.fuses := rfl
@[simp] theorem State.setSensor_time (n : Nat) (x : SensorState) : (s.setSensor n x).time = s.time := rfl
@[simp] theorem State.setSensor_mem (n : Nat) (x : SensorState) : (s.setSensor n x).mem = s.mem := rfl
@[simp] theorem State.setSensor_memctl (n : Nat) (x : SensorState) : (s.setSensor n x).memctl = s.memctl := rfl
@[simp] theorem State.setSensor_cache (n : Nat) (x : SensorState) : (s.setSensor n x).cache = s.cache := rfl
@[simp] theorem State.setSensor_cells (n : Nat) (x : SensorState) : (s.setSensor n x).cells = s.cells := rfl
@[simp] theorem State.setSensor_reed (n : Nat) (x : SensorState) : (s.setSensor n x).reed = s.reed := rfl
@[simp] theorem State.setSensor_front (n : Nat) (x : SensorState) : (s.setSensor n x).front = s.front := rfl
@[simp] theorem State.setSensor_serve (n : Nat) (x : SensorState) : (s.setSensor n x).serve = s.serve := rfl
@[simp] theorem State.setSensor_runtime (n : Nat) (x : SensorState) : (s.setSensor n x).runtime = s.runtime := rfl
@[simp] theorem State.setSensor_tree (n : Nat) (x : SensorState) : (s.setSensor n x).tree = s.tree := rfl
@[simp] theorem State.setSensor_ports (n : Nat) (x : SensorState) : (s.setSensor n x).ports = s.ports := rfl
@[simp] theorem State.setSensor_links (n : Nat) (x : SensorState) : (s.setSensor n x).links = s.links := rfl
@[simp] theorem State.setSensor_pcie (n : Nat) (x : SensorState) : (s.setSensor n x).pcie = s.pcie := rfl
@[simp] theorem State.setSensor_jtag (n : Nat) (x : SensorState) : (s.setSensor n x).jtag = s.jtag := rfl
@[simp] theorem State.setSensor_cores (n : Nat) (x : SensorState) : (s.setSensor n x).cores = s.cores := rfl
@[simp] theorem State.setSensor_fresh (n : Nat) (x : SensorState) : (s.setSensor n x).fresh = s.fresh := rfl
@[simp] theorem State.setSensor_out (n : Nat) (x : SensorState) : (s.setSensor n x).out = s.out := rfl

/-! ### setPort -/

@[simp] theorem State.setPort_pending (p : Nat) (x : Port) : (s.setPort p x).pending = s.pending := rfl
@[simp] theorem State.setPort_power (p : Nat) (x : Port) : (s.setPort p x).power = s.power := rfl
@[simp] theorem State.setPort_life (p : Nat) (x : Port) : (s.setPort p x).life = s.life := rfl
@[simp] theorem State.setPort_sensors (p : Nat) (x : Port) : (s.setPort p x).sensors = s.sensors := rfl
@[simp] theorem State.setPort_ledger (p : Nat) (x : Port) : (s.setPort p x).ledger = s.ledger := rfl
@[simp] theorem State.setPort_log (p : Nat) (x : Port) : (s.setPort p x).log = s.log := rfl
@[simp] theorem State.setPort_uhleg (p : Nat) (x : Port) : (s.setPort p x).uhleg = s.uhleg := rfl
@[simp] theorem State.setPort_update (p : Nat) (x : Port) : (s.setPort p x).update = s.update := rfl
@[simp] theorem State.setPort_mailbox (p : Nat) (x : Port) : (s.setPort p x).mailbox = s.mailbox := rfl
@[simp] theorem State.setPort_corePort (p : Nat) (x : Port) : (s.setPort p x).corePort = s.corePort := rfl
@[simp] theorem State.setPort_can (p : Nat) (x : Port) : (s.setPort p x).can = s.can := rfl
@[simp] theorem State.setPort_unlock (p : Nat) (x : Port) : (s.setPort p x).unlock = s.unlock := rfl
@[simp] theorem State.setPort_fuses (p : Nat) (x : Port) : (s.setPort p x).fuses = s.fuses := rfl
@[simp] theorem State.setPort_time (p : Nat) (x : Port) : (s.setPort p x).time = s.time := rfl
@[simp] theorem State.setPort_mem (p : Nat) (x : Port) : (s.setPort p x).mem = s.mem := rfl
@[simp] theorem State.setPort_memctl (p : Nat) (x : Port) : (s.setPort p x).memctl = s.memctl := rfl
@[simp] theorem State.setPort_cache (p : Nat) (x : Port) : (s.setPort p x).cache = s.cache := rfl
@[simp] theorem State.setPort_cells (p : Nat) (x : Port) : (s.setPort p x).cells = s.cells := rfl
@[simp] theorem State.setPort_reed (p : Nat) (x : Port) : (s.setPort p x).reed = s.reed := rfl
@[simp] theorem State.setPort_front (p : Nat) (x : Port) : (s.setPort p x).front = s.front := rfl
@[simp] theorem State.setPort_serve (p : Nat) (x : Port) : (s.setPort p x).serve = s.serve := rfl
@[simp] theorem State.setPort_runtime (p : Nat) (x : Port) : (s.setPort p x).runtime = s.runtime := rfl
@[simp] theorem State.setPort_tree (p : Nat) (x : Port) : (s.setPort p x).tree = s.tree := rfl
@[simp] theorem State.setPort_links (p : Nat) (x : Port) : (s.setPort p x).links = s.links := rfl
@[simp] theorem State.setPort_pcie (p : Nat) (x : Port) : (s.setPort p x).pcie = s.pcie := rfl
@[simp] theorem State.setPort_jtag (p : Nat) (x : Port) : (s.setPort p x).jtag = s.jtag := rfl
@[simp] theorem State.setPort_cores (p : Nat) (x : Port) : (s.setPort p x).cores = s.cores := rfl
@[simp] theorem State.setPort_fresh (p : Nat) (x : Port) : (s.setPort p x).fresh = s.fresh := rfl
@[simp] theorem State.setPort_out (p : Nat) (x : Port) : (s.setPort p x).out = s.out := rfl

/-! ### setLink -/

@[simp] theorem State.setLink_pending (p : Nat) (x : PortWork) : (s.setLink p x).pending = s.pending := rfl
@[simp] theorem State.setLink_power (p : Nat) (x : PortWork) : (s.setLink p x).power = s.power := rfl
@[simp] theorem State.setLink_life (p : Nat) (x : PortWork) : (s.setLink p x).life = s.life := rfl
@[simp] theorem State.setLink_sensors (p : Nat) (x : PortWork) : (s.setLink p x).sensors = s.sensors := rfl
@[simp] theorem State.setLink_ledger (p : Nat) (x : PortWork) : (s.setLink p x).ledger = s.ledger := rfl
@[simp] theorem State.setLink_log (p : Nat) (x : PortWork) : (s.setLink p x).log = s.log := rfl
@[simp] theorem State.setLink_uhleg (p : Nat) (x : PortWork) : (s.setLink p x).uhleg = s.uhleg := rfl
@[simp] theorem State.setLink_update (p : Nat) (x : PortWork) : (s.setLink p x).update = s.update := rfl
@[simp] theorem State.setLink_mailbox (p : Nat) (x : PortWork) : (s.setLink p x).mailbox = s.mailbox := rfl
@[simp] theorem State.setLink_corePort (p : Nat) (x : PortWork) : (s.setLink p x).corePort = s.corePort := rfl
@[simp] theorem State.setLink_can (p : Nat) (x : PortWork) : (s.setLink p x).can = s.can := rfl
@[simp] theorem State.setLink_unlock (p : Nat) (x : PortWork) : (s.setLink p x).unlock = s.unlock := rfl
@[simp] theorem State.setLink_fuses (p : Nat) (x : PortWork) : (s.setLink p x).fuses = s.fuses := rfl
@[simp] theorem State.setLink_time (p : Nat) (x : PortWork) : (s.setLink p x).time = s.time := rfl
@[simp] theorem State.setLink_mem (p : Nat) (x : PortWork) : (s.setLink p x).mem = s.mem := rfl
@[simp] theorem State.setLink_memctl (p : Nat) (x : PortWork) : (s.setLink p x).memctl = s.memctl := rfl
@[simp] theorem State.setLink_cache (p : Nat) (x : PortWork) : (s.setLink p x).cache = s.cache := rfl
@[simp] theorem State.setLink_cells (p : Nat) (x : PortWork) : (s.setLink p x).cells = s.cells := rfl
@[simp] theorem State.setLink_reed (p : Nat) (x : PortWork) : (s.setLink p x).reed = s.reed := rfl
@[simp] theorem State.setLink_front (p : Nat) (x : PortWork) : (s.setLink p x).front = s.front := rfl
@[simp] theorem State.setLink_serve (p : Nat) (x : PortWork) : (s.setLink p x).serve = s.serve := rfl
@[simp] theorem State.setLink_runtime (p : Nat) (x : PortWork) : (s.setLink p x).runtime = s.runtime := rfl
@[simp] theorem State.setLink_tree (p : Nat) (x : PortWork) : (s.setLink p x).tree = s.tree := rfl
@[simp] theorem State.setLink_ports (p : Nat) (x : PortWork) : (s.setLink p x).ports = s.ports := rfl
@[simp] theorem State.setLink_pcie (p : Nat) (x : PortWork) : (s.setLink p x).pcie = s.pcie := rfl
@[simp] theorem State.setLink_jtag (p : Nat) (x : PortWork) : (s.setLink p x).jtag = s.jtag := rfl
@[simp] theorem State.setLink_cores (p : Nat) (x : PortWork) : (s.setLink p x).cores = s.cores := rfl
@[simp] theorem State.setLink_fresh (p : Nat) (x : PortWork) : (s.setLink p x).fresh = s.fresh := rfl
@[simp] theorem State.setLink_out (p : Nat) (x : PortWork) : (s.setLink p x).out = s.out := rfl

/-! ### setMsixByte -/

@[simp] theorem State.setMsixByte_pending (i : Nat) (b : Byte) : (s.setMsixByte i b).pending = s.pending := rfl
@[simp] theorem State.setMsixByte_power (i : Nat) (b : Byte) : (s.setMsixByte i b).power = s.power := rfl
@[simp] theorem State.setMsixByte_life (i : Nat) (b : Byte) : (s.setMsixByte i b).life = s.life := rfl
@[simp] theorem State.setMsixByte_sensors (i : Nat) (b : Byte) : (s.setMsixByte i b).sensors = s.sensors := rfl
@[simp] theorem State.setMsixByte_ledger (i : Nat) (b : Byte) : (s.setMsixByte i b).ledger = s.ledger := rfl
@[simp] theorem State.setMsixByte_log (i : Nat) (b : Byte) : (s.setMsixByte i b).log = s.log := rfl
@[simp] theorem State.setMsixByte_uhleg (i : Nat) (b : Byte) : (s.setMsixByte i b).uhleg = s.uhleg := rfl
@[simp] theorem State.setMsixByte_update (i : Nat) (b : Byte) : (s.setMsixByte i b).update = s.update := rfl
@[simp] theorem State.setMsixByte_mailbox (i : Nat) (b : Byte) : (s.setMsixByte i b).mailbox = s.mailbox := rfl
@[simp] theorem State.setMsixByte_corePort (i : Nat) (b : Byte) : (s.setMsixByte i b).corePort = s.corePort := rfl
@[simp] theorem State.setMsixByte_can (i : Nat) (b : Byte) : (s.setMsixByte i b).can = s.can := rfl
@[simp] theorem State.setMsixByte_unlock (i : Nat) (b : Byte) : (s.setMsixByte i b).unlock = s.unlock := rfl
@[simp] theorem State.setMsixByte_fuses (i : Nat) (b : Byte) : (s.setMsixByte i b).fuses = s.fuses := rfl
@[simp] theorem State.setMsixByte_time (i : Nat) (b : Byte) : (s.setMsixByte i b).time = s.time := rfl
@[simp] theorem State.setMsixByte_mem (i : Nat) (b : Byte) : (s.setMsixByte i b).mem = s.mem := rfl
@[simp] theorem State.setMsixByte_memctl (i : Nat) (b : Byte) : (s.setMsixByte i b).memctl = s.memctl := rfl
@[simp] theorem State.setMsixByte_cache (i : Nat) (b : Byte) : (s.setMsixByte i b).cache = s.cache := rfl
@[simp] theorem State.setMsixByte_cells (i : Nat) (b : Byte) : (s.setMsixByte i b).cells = s.cells := rfl
@[simp] theorem State.setMsixByte_reed (i : Nat) (b : Byte) : (s.setMsixByte i b).reed = s.reed := rfl
@[simp] theorem State.setMsixByte_front (i : Nat) (b : Byte) : (s.setMsixByte i b).front = s.front := rfl
@[simp] theorem State.setMsixByte_serve (i : Nat) (b : Byte) : (s.setMsixByte i b).serve = s.serve := rfl
@[simp] theorem State.setMsixByte_runtime (i : Nat) (b : Byte) : (s.setMsixByte i b).runtime = s.runtime := rfl
@[simp] theorem State.setMsixByte_tree (i : Nat) (b : Byte) : (s.setMsixByte i b).tree = s.tree := rfl
@[simp] theorem State.setMsixByte_ports (i : Nat) (b : Byte) : (s.setMsixByte i b).ports = s.ports := rfl
@[simp] theorem State.setMsixByte_links (i : Nat) (b : Byte) : (s.setMsixByte i b).links = s.links := rfl
@[simp] theorem State.setMsixByte_jtag (i : Nat) (b : Byte) : (s.setMsixByte i b).jtag = s.jtag := rfl
@[simp] theorem State.setMsixByte_cores (i : Nat) (b : Byte) : (s.setMsixByte i b).cores = s.cores := rfl
@[simp] theorem State.setMsixByte_fresh (i : Nat) (b : Byte) : (s.setMsixByte i b).fresh = s.fresh := rfl
@[simp] theorem State.setMsixByte_out (i : Nat) (b : Byte) : (s.setMsixByte i b).out = s.out := rfl

/-! ### markBank -/

@[simp] theorem State.markBank_pending (b : ImageBank) (ok : Bool) : (s.markBank b ok).pending = s.pending := rfl
@[simp] theorem State.markBank_power (b : ImageBank) (ok : Bool) : (s.markBank b ok).power = s.power := rfl
@[simp] theorem State.markBank_life (b : ImageBank) (ok : Bool) : (s.markBank b ok).life = s.life := rfl
@[simp] theorem State.markBank_sensors (b : ImageBank) (ok : Bool) : (s.markBank b ok).sensors = s.sensors := rfl
@[simp] theorem State.markBank_ledger (b : ImageBank) (ok : Bool) : (s.markBank b ok).ledger = s.ledger := rfl
@[simp] theorem State.markBank_log (b : ImageBank) (ok : Bool) : (s.markBank b ok).log = s.log := rfl
@[simp] theorem State.markBank_uhleg (b : ImageBank) (ok : Bool) : (s.markBank b ok).uhleg = s.uhleg := rfl
@[simp] theorem State.markBank_mailbox (b : ImageBank) (ok : Bool) : (s.markBank b ok).mailbox = s.mailbox := rfl
@[simp] theorem State.markBank_corePort (b : ImageBank) (ok : Bool) : (s.markBank b ok).corePort = s.corePort := rfl
@[simp] theorem State.markBank_can (b : ImageBank) (ok : Bool) : (s.markBank b ok).can = s.can := rfl
@[simp] theorem State.markBank_unlock (b : ImageBank) (ok : Bool) : (s.markBank b ok).unlock = s.unlock := rfl
@[simp] theorem State.markBank_fuses (b : ImageBank) (ok : Bool) : (s.markBank b ok).fuses = s.fuses := rfl
@[simp] theorem State.markBank_time (b : ImageBank) (ok : Bool) : (s.markBank b ok).time = s.time := rfl
@[simp] theorem State.markBank_mem (b : ImageBank) (ok : Bool) : (s.markBank b ok).mem = s.mem := rfl
@[simp] theorem State.markBank_memctl (b : ImageBank) (ok : Bool) : (s.markBank b ok).memctl = s.memctl := rfl
@[simp] theorem State.markBank_cache (b : ImageBank) (ok : Bool) : (s.markBank b ok).cache = s.cache := rfl
@[simp] theorem State.markBank_cells (b : ImageBank) (ok : Bool) : (s.markBank b ok).cells = s.cells := rfl
@[simp] theorem State.markBank_reed (b : ImageBank) (ok : Bool) : (s.markBank b ok).reed = s.reed := rfl
@[simp] theorem State.markBank_front (b : ImageBank) (ok : Bool) : (s.markBank b ok).front = s.front := rfl
@[simp] theorem State.markBank_serve (b : ImageBank) (ok : Bool) : (s.markBank b ok).serve = s.serve := rfl
@[simp] theorem State.markBank_runtime (b : ImageBank) (ok : Bool) : (s.markBank b ok).runtime = s.runtime := rfl
@[simp] theorem State.markBank_tree (b : ImageBank) (ok : Bool) : (s.markBank b ok).tree = s.tree := rfl
@[simp] theorem State.markBank_ports (b : ImageBank) (ok : Bool) : (s.markBank b ok).ports = s.ports := rfl
@[simp] theorem State.markBank_links (b : ImageBank) (ok : Bool) : (s.markBank b ok).links = s.links := rfl
@[simp] theorem State.markBank_pcie (b : ImageBank) (ok : Bool) : (s.markBank b ok).pcie = s.pcie := rfl
@[simp] theorem State.markBank_jtag (b : ImageBank) (ok : Bool) : (s.markBank b ok).jtag = s.jtag := rfl
@[simp] theorem State.markBank_cores (b : ImageBank) (ok : Bool) : (s.markBank b ok).cores = s.cores := rfl
@[simp] theorem State.markBank_fresh (b : ImageBank) (ok : Bool) : (s.markBank b ok).fresh = s.fresh := rfl
@[simp] theorem State.markBank_out (b : ImageBank) (ok : Bool) : (s.markBank b ok).out = s.out := rfl

/-! ### withServe -/

@[simp] theorem State.withServe_pending (f : ServeRegs → ServeRegs) : (s.withServe f).pending = s.pending := rfl
@[simp] theorem State.withServe_power (f : ServeRegs → ServeRegs) : (s.withServe f).power = s.power := rfl
@[simp] theorem State.withServe_life (f : ServeRegs → ServeRegs) : (s.withServe f).life = s.life := rfl
@[simp] theorem State.withServe_sensors (f : ServeRegs → ServeRegs) : (s.withServe f).sensors = s.sensors := rfl
@[simp] theorem State.withServe_ledger (f : ServeRegs → ServeRegs) : (s.withServe f).ledger = s.ledger := rfl
@[simp] theorem State.withServe_log (f : ServeRegs → ServeRegs) : (s.withServe f).log = s.log := rfl
@[simp] theorem State.withServe_uhleg (f : ServeRegs → ServeRegs) : (s.withServe f).uhleg = s.uhleg := rfl
@[simp] theorem State.withServe_update (f : ServeRegs → ServeRegs) : (s.withServe f).update = s.update := rfl
@[simp] theorem State.withServe_mailbox (f : ServeRegs → ServeRegs) : (s.withServe f).mailbox = s.mailbox := rfl
@[simp] theorem State.withServe_corePort (f : ServeRegs → ServeRegs) : (s.withServe f).corePort = s.corePort := rfl
@[simp] theorem State.withServe_can (f : ServeRegs → ServeRegs) : (s.withServe f).can = s.can := rfl
@[simp] theorem State.withServe_unlock (f : ServeRegs → ServeRegs) : (s.withServe f).unlock = s.unlock := rfl
@[simp] theorem State.withServe_fuses (f : ServeRegs → ServeRegs) : (s.withServe f).fuses = s.fuses := rfl
@[simp] theorem State.withServe_time (f : ServeRegs → ServeRegs) : (s.withServe f).time = s.time := rfl
@[simp] theorem State.withServe_mem (f : ServeRegs → ServeRegs) : (s.withServe f).mem = s.mem := rfl
@[simp] theorem State.withServe_memctl (f : ServeRegs → ServeRegs) : (s.withServe f).memctl = s.memctl := rfl
@[simp] theorem State.withServe_cache (f : ServeRegs → ServeRegs) : (s.withServe f).cache = s.cache := rfl
@[simp] theorem State.withServe_cells (f : ServeRegs → ServeRegs) : (s.withServe f).cells = s.cells := rfl
@[simp] theorem State.withServe_reed (f : ServeRegs → ServeRegs) : (s.withServe f).reed = s.reed := rfl
@[simp] theorem State.withServe_front (f : ServeRegs → ServeRegs) : (s.withServe f).front = s.front := rfl
@[simp] theorem State.withServe_runtime (f : ServeRegs → ServeRegs) : (s.withServe f).runtime = s.runtime := rfl
@[simp] theorem State.withServe_tree (f : ServeRegs → ServeRegs) : (s.withServe f).tree = s.tree := rfl
@[simp] theorem State.withServe_ports (f : ServeRegs → ServeRegs) : (s.withServe f).ports = s.ports := rfl
@[simp] theorem State.withServe_links (f : ServeRegs → ServeRegs) : (s.withServe f).links = s.links := rfl
@[simp] theorem State.withServe_pcie (f : ServeRegs → ServeRegs) : (s.withServe f).pcie = s.pcie := rfl
@[simp] theorem State.withServe_jtag (f : ServeRegs → ServeRegs) : (s.withServe f).jtag = s.jtag := rfl
@[simp] theorem State.withServe_cores (f : ServeRegs → ServeRegs) : (s.withServe f).cores = s.cores := rfl
@[simp] theorem State.withServe_fresh (f : ServeRegs → ServeRegs) : (s.withServe f).fresh = s.fresh := rfl
@[simp] theorem State.withServe_out (f : ServeRegs → ServeRegs) : (s.withServe f).out = s.out := rfl

/-! ### withRuntime -/

@[simp] theorem State.withRuntime_pending (f : Runtime → Runtime) : (s.withRuntime f).pending = s.pending := rfl
@[simp] theorem State.withRuntime_power (f : Runtime → Runtime) : (s.withRuntime f).power = s.power := rfl
@[simp] theorem State.withRuntime_life (f : Runtime → Runtime) : (s.withRuntime f).life = s.life := rfl
@[simp] theorem State.withRuntime_sensors (f : Runtime → Runtime) : (s.withRuntime f).sensors = s.sensors := rfl
@[simp] theorem State.withRuntime_ledger (f : Runtime → Runtime) : (s.withRuntime f).ledger = s.ledger := rfl
@[simp] theorem State.withRuntime_log (f : Runtime → Runtime) : (s.withRuntime f).log = s.log := rfl
@[simp] theorem State.withRuntime_uhleg (f : Runtime → Runtime) : (s.withRuntime f).uhleg = s.uhleg := rfl
@[simp] theorem State.withRuntime_update (f : Runtime → Runtime) : (s.withRuntime f).update = s.update := rfl
@[simp] theorem State.withRuntime_mailbox (f : Runtime → Runtime) : (s.withRuntime f).mailbox = s.mailbox := rfl
@[simp] theorem State.withRuntime_corePort (f : Runtime → Runtime) : (s.withRuntime f).corePort = s.corePort := rfl
@[simp] theorem State.withRuntime_can (f : Runtime → Runtime) : (s.withRuntime f).can = s.can := rfl
@[simp] theorem State.withRuntime_unlock (f : Runtime → Runtime) : (s.withRuntime f).unlock = s.unlock := rfl
@[simp] theorem State.withRuntime_fuses (f : Runtime → Runtime) : (s.withRuntime f).fuses = s.fuses := rfl
@[simp] theorem State.withRuntime_time (f : Runtime → Runtime) : (s.withRuntime f).time = s.time := rfl
@[simp] theorem State.withRuntime_mem (f : Runtime → Runtime) : (s.withRuntime f).mem = s.mem := rfl
@[simp] theorem State.withRuntime_memctl (f : Runtime → Runtime) : (s.withRuntime f).memctl = s.memctl := rfl
@[simp] theorem State.withRuntime_cache (f : Runtime → Runtime) : (s.withRuntime f).cache = s.cache := rfl
@[simp] theorem State.withRuntime_cells (f : Runtime → Runtime) : (s.withRuntime f).cells = s.cells := rfl
@[simp] theorem State.withRuntime_reed (f : Runtime → Runtime) : (s.withRuntime f).reed = s.reed := rfl
@[simp] theorem State.withRuntime_front (f : Runtime → Runtime) : (s.withRuntime f).front = s.front := rfl
@[simp] theorem State.withRuntime_serve (f : Runtime → Runtime) : (s.withRuntime f).serve = s.serve := rfl
@[simp] theorem State.withRuntime_tree (f : Runtime → Runtime) : (s.withRuntime f).tree = s.tree := rfl
@[simp] theorem State.withRuntime_ports (f : Runtime → Runtime) : (s.withRuntime f).ports = s.ports := rfl
@[simp] theorem State.withRuntime_links (f : Runtime → Runtime) : (s.withRuntime f).links = s.links := rfl
@[simp] theorem State.withRuntime_pcie (f : Runtime → Runtime) : (s.withRuntime f).pcie = s.pcie := rfl
@[simp] theorem State.withRuntime_jtag (f : Runtime → Runtime) : (s.withRuntime f).jtag = s.jtag := rfl
@[simp] theorem State.withRuntime_cores (f : Runtime → Runtime) : (s.withRuntime f).cores = s.cores := rfl
@[simp] theorem State.withRuntime_fresh (f : Runtime → Runtime) : (s.withRuntime f).fresh = s.fresh := rfl
@[simp] theorem State.withRuntime_out (f : Runtime → Runtime) : (s.withRuntime f).out = s.out := rfl

/-! ### withTree -/

@[simp] theorem State.withTree_pending (f : Tree → Tree) : (s.withTree f).pending = s.pending := rfl
@[simp] theorem State.withTree_power (f : Tree → Tree) : (s.withTree f).power = s.power := rfl
@[simp] theorem State.withTree_life (f : Tree → Tree) : (s.withTree f).life = s.life := rfl
@[simp] theorem State.withTree_sensors (f : Tree → Tree) : (s.withTree f).sensors = s.sensors := rfl
@[simp] theorem State.withTree_ledger (f : Tree → Tree) : (s.withTree f).ledger = s.ledger := rfl
@[simp] theorem State.withTree_log (f : Tree → Tree) : (s.withTree f).log = s.log := rfl
@[simp] theorem State.withTree_uhleg (f : Tree → Tree) : (s.withTree f).uhleg = s.uhleg := rfl
@[simp] theorem State.withTree_update (f : Tree → Tree) : (s.withTree f).update = s.update := rfl
@[simp] theorem State.withTree_mailbox (f : Tree → Tree) : (s.withTree f).mailbox = s.mailbox := rfl
@[simp] theorem State.withTree_corePort (f : Tree → Tree) : (s.withTree f).corePort = s.corePort := rfl
@[simp] theorem State.withTree_can (f : Tree → Tree) : (s.withTree f).can = s.can := rfl
@[simp] theorem State.withTree_unlock (f : Tree → Tree) : (s.withTree f).unlock = s.unlock := rfl
@[simp] theorem State.withTree_fuses (f : Tree → Tree) : (s.withTree f).fuses = s.fuses := rfl
@[simp] theorem State.withTree_time (f : Tree → Tree) : (s.withTree f).time = s.time := rfl
@[simp] theorem State.withTree_mem (f : Tree → Tree) : (s.withTree f).mem = s.mem := rfl
@[simp] theorem State.withTree_memctl (f : Tree → Tree) : (s.withTree f).memctl = s.memctl := rfl
@[simp] theorem State.withTree_cache (f : Tree → Tree) : (s.withTree f).cache = s.cache := rfl
@[simp] theorem State.withTree_cells (f : Tree → Tree) : (s.withTree f).cells = s.cells := rfl
@[simp] theorem State.withTree_reed (f : Tree → Tree) : (s.withTree f).reed = s.reed := rfl
@[simp] theorem State.withTree_front (f : Tree → Tree) : (s.withTree f).front = s.front := rfl
@[simp] theorem State.withTree_serve (f : Tree → Tree) : (s.withTree f).serve = s.serve := rfl
@[simp] theorem State.withTree_runtime (f : Tree → Tree) : (s.withTree f).runtime = s.runtime := rfl
@[simp] theorem State.withTree_ports (f : Tree → Tree) : (s.withTree f).ports = s.ports := rfl
@[simp] theorem State.withTree_links (f : Tree → Tree) : (s.withTree f).links = s.links := rfl
@[simp] theorem State.withTree_pcie (f : Tree → Tree) : (s.withTree f).pcie = s.pcie := rfl
@[simp] theorem State.withTree_jtag (f : Tree → Tree) : (s.withTree f).jtag = s.jtag := rfl
@[simp] theorem State.withTree_cores (f : Tree → Tree) : (s.withTree f).cores = s.cores := rfl
@[simp] theorem State.withTree_fresh (f : Tree → Tree) : (s.withTree f).fresh = s.fresh := rfl
@[simp] theorem State.withTree_out (f : Tree → Tree) : (s.withTree f).out = s.out := rfl

/-! ### setNode -/

@[simp] theorem State.setNode_pending (i : Nat) (n : TreeNode) : (s.setNode i n).pending = s.pending := rfl
@[simp] theorem State.setNode_power (i : Nat) (n : TreeNode) : (s.setNode i n).power = s.power := rfl
@[simp] theorem State.setNode_life (i : Nat) (n : TreeNode) : (s.setNode i n).life = s.life := rfl
@[simp] theorem State.setNode_sensors (i : Nat) (n : TreeNode) : (s.setNode i n).sensors = s.sensors := rfl
@[simp] theorem State.setNode_ledger (i : Nat) (n : TreeNode) : (s.setNode i n).ledger = s.ledger := rfl
@[simp] theorem State.setNode_log (i : Nat) (n : TreeNode) : (s.setNode i n).log = s.log := rfl
@[simp] theorem State.setNode_uhleg (i : Nat) (n : TreeNode) : (s.setNode i n).uhleg = s.uhleg := rfl
@[simp] theorem State.setNode_update (i : Nat) (n : TreeNode) : (s.setNode i n).update = s.update := rfl
@[simp] theorem State.setNode_mailbox (i : Nat) (n : TreeNode) : (s.setNode i n).mailbox = s.mailbox := rfl
@[simp] theorem State.setNode_corePort (i : Nat) (n : TreeNode) : (s.setNode i n).corePort = s.corePort := rfl
@[simp] theorem State.setNode_can (i : Nat) (n : TreeNode) : (s.setNode i n).can = s.can := rfl
@[simp] theorem State.setNode_unlock (i : Nat) (n : TreeNode) : (s.setNode i n).unlock = s.unlock := rfl
@[simp] theorem State.setNode_fuses (i : Nat) (n : TreeNode) : (s.setNode i n).fuses = s.fuses := rfl
@[simp] theorem State.setNode_time (i : Nat) (n : TreeNode) : (s.setNode i n).time = s.time := rfl
@[simp] theorem State.setNode_mem (i : Nat) (n : TreeNode) : (s.setNode i n).mem = s.mem := rfl
@[simp] theorem State.setNode_memctl (i : Nat) (n : TreeNode) : (s.setNode i n).memctl = s.memctl := rfl
@[simp] theorem State.setNode_cache (i : Nat) (n : TreeNode) : (s.setNode i n).cache = s.cache := rfl
@[simp] theorem State.setNode_cells (i : Nat) (n : TreeNode) : (s.setNode i n).cells = s.cells := rfl
@[simp] theorem State.setNode_reed (i : Nat) (n : TreeNode) : (s.setNode i n).reed = s.reed := rfl
@[simp] theorem State.setNode_front (i : Nat) (n : TreeNode) : (s.setNode i n).front = s.front := rfl
@[simp] theorem State.setNode_serve (i : Nat) (n : TreeNode) : (s.setNode i n).serve = s.serve := rfl
@[simp] theorem State.setNode_runtime (i : Nat) (n : TreeNode) : (s.setNode i n).runtime = s.runtime := rfl
@[simp] theorem State.setNode_ports (i : Nat) (n : TreeNode) : (s.setNode i n).ports = s.ports := rfl
@[simp] theorem State.setNode_links (i : Nat) (n : TreeNode) : (s.setNode i n).links = s.links := rfl
@[simp] theorem State.setNode_pcie (i : Nat) (n : TreeNode) : (s.setNode i n).pcie = s.pcie := rfl
@[simp] theorem State.setNode_jtag (i : Nat) (n : TreeNode) : (s.setNode i n).jtag = s.jtag := rfl
@[simp] theorem State.setNode_cores (i : Nat) (n : TreeNode) : (s.setNode i n).cores = s.cores := rfl
@[simp] theorem State.setNode_fresh (i : Nat) (n : TreeNode) : (s.setNode i n).fresh = s.fresh := rfl
@[simp] theorem State.setNode_out (i : Nat) (n : TreeNode) : (s.setNode i n).out = s.out := rfl

/-! ### draw -/

@[simp] theorem State.draw_pending : s.draw.2.pending = s.pending := rfl
@[simp] theorem State.draw_power : s.draw.2.power = s.power := rfl
@[simp] theorem State.draw_life : s.draw.2.life = s.life := rfl
@[simp] theorem State.draw_sensors : s.draw.2.sensors = s.sensors := rfl
@[simp] theorem State.draw_ledger : s.draw.2.ledger = s.ledger := rfl
@[simp] theorem State.draw_log : s.draw.2.log = s.log := rfl
@[simp] theorem State.draw_uhleg : s.draw.2.uhleg = s.uhleg := rfl
@[simp] theorem State.draw_update : s.draw.2.update = s.update := rfl
@[simp] theorem State.draw_mailbox : s.draw.2.mailbox = s.mailbox := rfl
@[simp] theorem State.draw_corePort : s.draw.2.corePort = s.corePort := rfl
@[simp] theorem State.draw_can : s.draw.2.can = s.can := rfl
@[simp] theorem State.draw_unlock : s.draw.2.unlock = s.unlock := rfl
@[simp] theorem State.draw_fuses : s.draw.2.fuses = s.fuses := rfl
@[simp] theorem State.draw_time : s.draw.2.time = s.time := rfl
@[simp] theorem State.draw_mem : s.draw.2.mem = s.mem := rfl
@[simp] theorem State.draw_memctl : s.draw.2.memctl = s.memctl := rfl
@[simp] theorem State.draw_cache : s.draw.2.cache = s.cache := rfl
@[simp] theorem State.draw_cells : s.draw.2.cells = s.cells := rfl
@[simp] theorem State.draw_reed : s.draw.2.reed = s.reed := rfl
@[simp] theorem State.draw_front : s.draw.2.front = s.front := rfl
@[simp] theorem State.draw_serve : s.draw.2.serve = s.serve := rfl
@[simp] theorem State.draw_runtime : s.draw.2.runtime = s.runtime := rfl
@[simp] theorem State.draw_tree : s.draw.2.tree = s.tree := rfl
@[simp] theorem State.draw_ports : s.draw.2.ports = s.ports := rfl
@[simp] theorem State.draw_links : s.draw.2.links = s.links := rfl
@[simp] theorem State.draw_pcie : s.draw.2.pcie = s.pcie := rfl
@[simp] theorem State.draw_jtag : s.draw.2.jtag = s.jtag := rfl
@[simp] theorem State.draw_cores : s.draw.2.cores = s.cores := rfl
@[simp] theorem State.draw_out : s.draw.2.out = s.out := rfl
@[simp] theorem State.draw_number : s.draw.1 = s.fresh := rfl
@[simp] theorem State.draw_fresh : s.draw.2.fresh = s.fresh + 1 := rfl

/-! ### What the updates write -/

@[simp] theorem State.emit_out (o : Out) : (s.emit o).out = o :: s.out := rfl
@[simp] theorem State.withFront_log_front (l : List LogRec) : (s.withFront l).log.front = l := rfl
@[simp] theorem State.withServe_serve (f : ServeRegs → ServeRegs) : (s.withServe f).serve = f s.serve := rfl
@[simp] theorem State.withRuntime_runtime (f : Runtime → Runtime) : (s.withRuntime f).runtime = f s.runtime := rfl
@[simp] theorem State.withTree_tree (f : Tree → Tree) : (s.withTree f).tree = f s.tree := rfl
@[simp] theorem State.memWrite_mem (a : Nat) (l : List Byte) : (s.memWrite a l).mem = Sparse.write 0 s.mem a l := rfl

end

end Sys2Proof.Machine
end

