-- ==== Sys2Proof/Laws/Ops.lean ====
section
/-! SUPPORT. Laws/Ops.lean: what each shared operation leaves as it was, said once for all fields, and the values of the
Ledger after an update. -/

namespace Sys2Proof.Machine

/-! ### Frames -/

/-- A counter advances: the Ledger alone changes. -/
@[simp] theorem State.bump_frame (s : State) (index sub elem k : Nat) :
    (s.bump index sub elem k).pending = s.pending ∧ (s.bump index sub elem k).power = s.power ∧
      (s.bump index sub elem k).life = s.life ∧ (s.bump index sub elem k).sensors = s.sensors ∧
      (s.bump index sub elem k).log = s.log ∧ (s.bump index sub elem k).uhleg = s.uhleg ∧
      (s.bump index sub elem k).update = s.update ∧ (s.bump index sub elem k).mailbox = s.mailbox ∧
      (s.bump index sub elem k).corePort = s.corePort ∧ (s.bump index sub elem k).can = s.can ∧
      (s.bump index sub elem k).unlock = s.unlock ∧ (s.bump index sub elem k).fuses = s.fuses ∧
      (s.bump index sub elem k).time = s.time ∧ (s.bump index sub elem k).mem = s.mem ∧
      (s.bump index sub elem k).memctl = s.memctl ∧ (s.bump index sub elem k).cache = s.cache ∧
      (s.bump index sub elem k).cells = s.cells ∧ (s.bump index sub elem k).reed = s.reed ∧
      (s.bump index sub elem k).front = s.front ∧ (s.bump index sub elem k).serve = s.serve ∧
      (s.bump index sub elem k).runtime = s.runtime ∧ (s.bump index sub elem k).tree = s.tree ∧
      (s.bump index sub elem k).ports = s.ports ∧ (s.bump index sub elem k).links = s.links ∧
      (s.bump index sub elem k).pcie = s.pcie ∧ (s.bump index sub elem k).jtag = s.jtag ∧
      (s.bump index sub elem k).cores = s.cores ∧
      (s.bump index sub elem k).fresh = s.fresh ∧ (s.bump index sub elem k).out = s.out := by
  unfold State.bump
  split <;> simp

/-- A persisted counter advances: the Ledger alone changes. -/
@[simp] theorem State.bumpStored_frame (s : State) (index sub elem k : Nat) :
    (s.bumpStored index sub elem k).pending = s.pending ∧ (s.bumpStored index sub elem k).power = s.power ∧
      (s.bumpStored index sub elem k).life = s.life ∧ (s.bumpStored index sub elem k).sensors = s.sensors ∧
      (s.bumpStored index sub elem k).log = s.log ∧ (s.bumpStored index sub elem k).uhleg = s.uhleg ∧
      (s.bumpStored index sub elem k).update = s.update ∧ (s.bumpStored index sub elem k).mailbox = s.mailbox ∧
      (s.bumpStored index sub elem k).corePort = s.corePort ∧ (s.bumpStored index sub elem k).can = s.can ∧
      (s.bumpStored index sub elem k).unlock = s.unlock ∧ (s.bumpStored index sub elem k).fuses = s.fuses ∧
      (s.bumpStored index sub elem k).time = s.time ∧ (s.bumpStored index sub elem k).mem = s.mem ∧
      (s.bumpStored index sub elem k).memctl = s.memctl ∧ (s.bumpStored index sub elem k).cache = s.cache ∧
      (s.bumpStored index sub elem k).cells = s.cells ∧ (s.bumpStored index sub elem k).reed = s.reed ∧
      (s.bumpStored index sub elem k).front = s.front ∧ (s.bumpStored index sub elem k).serve = s.serve ∧
      (s.bumpStored index sub elem k).runtime = s.runtime ∧ (s.bumpStored index sub elem k).tree = s.tree ∧
      (s.bumpStored index sub elem k).ports = s.ports ∧ (s.bumpStored index sub elem k).links = s.links ∧
      (s.bumpStored index sub elem k).pcie = s.pcie ∧ (s.bumpStored index sub elem k).jtag = s.jtag ∧
      (s.bumpStored index sub elem k).cores = s.cores ∧
      (s.bumpStored index sub elem k).fresh = s.fresh ∧ (s.bumpStored index sub elem k).out = s.out := by
  simp [State.bumpStored]

/-- A maximum takes a value: the Ledger alone changes. -/
@[simp] theorem State.noteMax_frame (s : State) (index sub elem v : Nat) :
    (s.noteMax index sub elem v).pending = s.pending ∧ (s.noteMax index sub elem v).power = s.power ∧
      (s.noteMax index sub elem v).life = s.life ∧ (s.noteMax index sub elem v).sensors = s.sensors ∧
      (s.noteMax index sub elem v).log = s.log ∧ (s.noteMax index sub elem v).uhleg = s.uhleg ∧
      (s.noteMax index sub elem v).update = s.update ∧ (s.noteMax index sub elem v).mailbox = s.mailbox ∧
      (s.noteMax index sub elem v).corePort = s.corePort ∧ (s.noteMax index sub elem v).can = s.can ∧
      (s.noteMax index sub elem v).unlock = s.unlock ∧ (s.noteMax index sub elem v).fuses = s.fuses ∧
      (s.noteMax index sub elem v).time = s.time ∧ (s.noteMax index sub elem v).mem = s.mem ∧
      (s.noteMax index sub elem v).memctl = s.memctl ∧ (s.noteMax index sub elem v).cache = s.cache ∧
      (s.noteMax index sub elem v).cells = s.cells ∧ (s.noteMax index sub elem v).reed = s.reed ∧
      (s.noteMax index sub elem v).front = s.front ∧ (s.noteMax index sub elem v).serve = s.serve ∧
      (s.noteMax index sub elem v).runtime = s.runtime ∧ (s.noteMax index sub elem v).tree = s.tree ∧
      (s.noteMax index sub elem v).ports = s.ports ∧ (s.noteMax index sub elem v).links = s.links ∧
      (s.noteMax index sub elem v).pcie = s.pcie ∧ (s.noteMax index sub elem v).jtag = s.jtag ∧
      (s.noteMax index sub elem v).cores = s.cores ∧
      (s.noteMax index sub elem v).fresh = s.fresh ∧ (s.noteMax index sub elem v).out = s.out := by
  unfold State.noteMax
  split <;> simp

/-- A vector is sent, or made pending. -/
@[simp] theorem State.msix_frame (s : State) (v : Nat) :
    (s.msix v).pending = s.pending ∧ (s.msix v).power = s.power ∧ (s.msix v).life = s.life ∧
      (s.msix v).sensors = s.sensors ∧ (s.msix v).ledger = s.ledger ∧ (s.msix v).log = s.log ∧ (s.msix v).uhleg = s.uhleg ∧
      (s.msix v).update = s.update ∧ (s.msix v).mailbox = s.mailbox ∧ (s.msix v).corePort = s.corePort ∧
      (s.msix v).can = s.can ∧ (s.msix v).unlock = s.unlock ∧ (s.msix v).fuses = s.fuses ∧ (s.msix v).time = s.time ∧
      (s.msix v).mem = s.mem ∧ (s.msix v).memctl = s.memctl ∧ (s.msix v).cache = s.cache ∧ (s.msix v).cells = s.cells ∧
      (s.msix v).reed = s.reed ∧ (s.msix v).front = s.front ∧ (s.msix v).serve = s.serve ∧ (s.msix v).runtime = s.runtime ∧
      (s.msix v).tree = s.tree ∧ (s.msix v).ports = s.ports ∧ (s.msix v).links = s.links ∧ (s.msix v).jtag = s.jtag ∧
      (s.msix v).cores = s.cores ∧
      (s.msix v).fresh = s.fresh := by
  unfold State.msix
  repeat' split
  all_goals simp

/-- A frame is sent: it is counted in the Ledger. -/
@[simp] theorem State.sendCan_frame (s : State) (ident : Nat) (data : List Byte) :
    (s.sendCan ident data).pending = s.pending ∧ (s.sendCan ident data).power = s.power ∧
      (s.sendCan ident data).life = s.life ∧ (s.sendCan ident data).sensors = s.sensors ∧
      (s.sendCan ident data).log = s.log ∧ (s.sendCan ident data).uhleg = s.uhleg ∧
      (s.sendCan ident data).update = s.update ∧ (s.sendCan ident data).mailbox = s.mailbox ∧
      (s.sendCan ident data).corePort = s.corePort ∧ (s.sendCan ident data).can = s.can ∧
      (s.sendCan ident data).unlock = s.unlock ∧ (s.sendCan ident data).fuses = s.fuses ∧
      (s.sendCan ident data).time = s.time ∧ (s.sendCan ident data).mem = s.mem ∧ (s.sendCan ident data).memctl = s.memctl ∧
      (s.sendCan ident data).cache = s.cache ∧ (s.sendCan ident data).cells = s.cells ∧
      (s.sendCan ident data).reed = s.reed ∧ (s.sendCan ident data).front = s.front ∧
      (s.sendCan ident data).serve = s.serve ∧ (s.sendCan ident data).runtime = s.runtime ∧
      (s.sendCan ident data).tree = s.tree ∧ (s.sendCan ident data).ports = s.ports ∧
      (s.sendCan ident data).links = s.links ∧ (s.sendCan ident data).pcie = s.pcie ∧ (s.sendCan ident data).jtag = s.jtag ∧
      (s.sendCan ident data).cores = s.cores ∧
      (s.sendCan ident data).fresh = s.fresh := by
  unfold State.sendCan
  split <;> simp

/-- A NOTIFY: its count advances. -/
@[simp] theorem State.notify_frame (s : State) (kind : Nat) :
    (s.notify kind).pending = s.pending ∧ (s.notify kind).power = s.power ∧ (s.notify kind).life = s.life ∧
      (s.notify kind).sensors = s.sensors ∧ (s.notify kind).log = s.log ∧ (s.notify kind).uhleg = s.uhleg ∧
      (s.notify kind).update = s.update ∧ (s.notify kind).mailbox = s.mailbox ∧ (s.notify kind).corePort = s.corePort ∧
      (s.notify kind).unlock = s.unlock ∧ (s.notify kind).fuses = s.fuses ∧ (s.notify kind).time = s.time ∧
      (s.notify kind).mem = s.mem ∧ (s.notify kind).memctl = s.memctl ∧ (s.notify kind).cache = s.cache ∧
      (s.notify kind).cells = s.cells ∧ (s.notify kind).reed = s.reed ∧ (s.notify kind).front = s.front ∧
      (s.notify kind).serve = s.serve ∧ (s.notify kind).runtime = s.runtime ∧ (s.notify kind).tree = s.tree ∧
      (s.notify kind).ports = s.ports ∧ (s.notify kind).links = s.links ∧ (s.notify kind).pcie = s.pcie ∧
      (s.notify kind).jtag = s.jtag ∧
      (s.notify kind).cores = s.cores ∧ (s.notify kind).fresh = s.fresh := by
  unfold State.notify
  split <;> simp

/-- A record is dropped. -/
@[simp] theorem State.lose_frame (s : State) :
    (s.lose).pending = s.pending ∧ (s.lose).power = s.power ∧ (s.lose).life = s.life ∧ (s.lose).sensors = s.sensors ∧
      (s.lose).uhleg = s.uhleg ∧ (s.lose).update = s.update ∧ (s.lose).mailbox = s.mailbox ∧
      (s.lose).corePort = s.corePort ∧ (s.lose).can = s.can ∧ (s.lose).unlock = s.unlock ∧ (s.lose).fuses = s.fuses ∧
      (s.lose).time = s.time ∧ (s.lose).mem = s.mem ∧ (s.lose).memctl = s.memctl ∧ (s.lose).cache = s.cache ∧
      (s.lose).cells = s.cells ∧ (s.lose).reed = s.reed ∧ (s.lose).front = s.front ∧ (s.lose).serve = s.serve ∧
      (s.lose).runtime = s.runtime ∧ (s.lose).tree = s.tree ∧ (s.lose).ports = s.ports ∧ (s.lose).links = s.links ∧
      (s.lose).pcie = s.pcie ∧ (s.lose).jtag = s.jtag ∧
      (s.lose).cores = s.cores ∧ (s.lose).fresh = s.fresh ∧ (s.lose).out = s.out := by
  simp [State.lose]

/-- A record enters the log front. -/
@[simp] theorem State.enterFront_frame (s : State) (r : LogRec) :
    (s.enterFront r).pending = s.pending ∧ (s.enterFront r).power = s.power ∧ (s.enterFront r).life = s.life ∧
      (s.enterFront r).sensors = s.sensors ∧ (s.enterFront r).uhleg = s.uhleg ∧ (s.enterFront r).update = s.update ∧
      (s.enterFront r).mailbox = s.mailbox ∧ (s.enterFront r).corePort = s.corePort ∧ (s.enterFront r).can = s.can ∧
      (s.enterFront r).unlock = s.unlock ∧ (s.enterFront r).fuses = s.fuses ∧ (s.enterFront r).time = s.time ∧
      (s.enterFront r).mem = s.mem ∧ (s.enterFront r).memctl = s.memctl ∧ (s.enterFront r).cache = s.cache ∧
      (s.enterFront r).cells = s.cells ∧ (s.enterFront r).reed = s.reed ∧ (s.enterFront r).front = s.front ∧
      (s.enterFront r).serve = s.serve ∧ (s.enterFront r).runtime = s.runtime ∧ (s.enterFront r).tree = s.tree ∧
      (s.enterFront r).ports = s.ports ∧ (s.enterFront r).links = s.links ∧ (s.enterFront r).pcie = s.pcie ∧
      (s.enterFront r).jtag = s.jtag ∧
      (s.enterFront r).cores = s.cores ∧ (s.enterFront r).fresh = s.fresh ∧ (s.enterFront r).out = s.out := by
  unfold State.enterFront
  dsimp only
  repeat' split
  all_goals simp

/-- A WARNING is counted and signalled. -/
@[simp] theorem State.warn_frame (s : State) :
    (s.warn).pending = s.pending ∧ (s.warn).power = s.power ∧ (s.warn).life = s.life ∧ (s.warn).sensors = s.sensors ∧
      (s.warn).log = s.log ∧ (s.warn).uhleg = s.uhleg ∧ (s.warn).update = s.update ∧ (s.warn).mailbox = s.mailbox ∧
      (s.warn).corePort = s.corePort ∧ (s.warn).can = s.can ∧ (s.warn).unlock = s.unlock ∧ (s.warn).fuses = s.fuses ∧
      (s.warn).time = s.time ∧ (s.warn).mem = s.mem ∧ (s.warn).memctl = s.memctl ∧ (s.warn).cache = s.cache ∧
      (s.warn).cells = s.cells ∧ (s.warn).reed = s.reed ∧ (s.warn).front = s.front ∧ (s.warn).serve = s.serve ∧
      (s.warn).runtime = s.runtime ∧ (s.warn).tree = s.tree ∧ (s.warn).ports = s.ports ∧ (s.warn).links = s.links ∧
      (s.warn).jtag = s.jtag ∧
      (s.warn).cores = s.cores ∧ (s.warn).fresh = s.fresh := by
  simp [State.warn]

/-- An event is raised: the Ledger, the log, pending vectors and messages alone change. -/
@[simp] theorem State.raise_frame (s : State) (code severity : Nat) (data : List Byte) :
    (s.raise code severity data).pending = s.pending ∧ (s.raise code severity data).power = s.power ∧
      (s.raise code severity data).life = s.life ∧ (s.raise code severity data).sensors = s.sensors ∧
      (s.raise code severity data).uhleg = s.uhleg ∧ (s.raise code severity data).update = s.update ∧
      (s.raise code severity data).mailbox = s.mailbox ∧ (s.raise code severity data).corePort = s.corePort ∧
      (s.raise code severity data).can = s.can ∧ (s.raise code severity data).unlock = s.unlock ∧
      (s.raise code severity data).fuses = s.fuses ∧ (s.raise code severity data).time = s.time ∧
      (s.raise code severity data).mem = s.mem ∧ (s.raise code severity data).memctl = s.memctl ∧
      (s.raise code severity data).cache = s.cache ∧ (s.raise code severity data).cells = s.cells ∧
      (s.raise code severity data).reed = s.reed ∧ (s.raise code severity data).front = s.front ∧
      (s.raise code severity data).serve = s.serve ∧ (s.raise code severity data).runtime = s.runtime ∧
      (s.raise code severity data).tree = s.tree ∧ (s.raise code severity data).ports = s.ports ∧
      (s.raise code severity data).links = s.links ∧ (s.raise code severity data).jtag = s.jtag ∧
      (s.raise code severity data).cores = s.cores ∧
      (s.raise code severity data).fresh = s.fresh := by
  unfold State.raise
  dsimp only
  split <;> simp

/-- The device state changes. -/
@[simp] theorem State.enterState_frame (s : State) (d : DevState) (kind : Nat) :
    (s.enterState d kind).pending = s.pending ∧ (s.enterState d kind).power = s.power ∧
      (s.enterState d kind).sensors = s.sensors ∧ (s.enterState d kind).uhleg = s.uhleg ∧
      (s.enterState d kind).update = s.update ∧ (s.enterState d kind).mailbox = s.mailbox ∧
      (s.enterState d kind).corePort = s.corePort ∧ (s.enterState d kind).unlock = s.unlock ∧
      (s.enterState d kind).fuses = s.fuses ∧ (s.enterState d kind).time = s.time ∧ (s.enterState d kind).mem = s.mem ∧
      (s.enterState d kind).memctl = s.memctl ∧ (s.enterState d kind).cache = s.cache ∧
      (s.enterState d kind).cells = s.cells ∧ (s.enterState d kind).reed = s.reed ∧ (s.enterState d kind).front = s.front ∧
      (s.enterState d kind).serve = s.serve ∧ (s.enterState d kind).runtime = s.runtime ∧
      (s.enterState d kind).tree = s.tree ∧ (s.enterState d kind).ports = s.ports ∧ (s.enterState d kind).links = s.links ∧
      (s.enterState d kind).jtag = s.jtag ∧
      (s.enterState d kind).cores = s.cores ∧ (s.enterState d kind).fresh = s.fresh := by
  unfold State.enterState
  dsimp only
  repeat' split
  all_goals simp

/-- What follows a change of Mesh complete. -/
@[simp] theorem State.meshChanged_frame (s : State) (before raises : Bool) :
    (s.meshChanged before raises).pending = s.pending ∧ (s.meshChanged before raises).power = s.power ∧
      (s.meshChanged before raises).life = s.life ∧ (s.meshChanged before raises).sensors = s.sensors ∧
      (s.meshChanged before raises).uhleg = s.uhleg ∧ (s.meshChanged before raises).update = s.update ∧
      (s.meshChanged before raises).mailbox = s.mailbox ∧ (s.meshChanged before raises).corePort = s.corePort ∧
      (s.meshChanged before raises).can = s.can ∧ (s.meshChanged before raises).unlock = s.unlock ∧
      (s.meshChanged before raises).fuses = s.fuses ∧ (s.meshChanged before raises).time = s.time ∧
      (s.meshChanged before raises).mem = s.mem ∧ (s.meshChanged before raises).memctl = s.memctl ∧
      (s.meshChanged before raises).cache = s.cache ∧ (s.meshChanged before raises).cells = s.cells ∧
      (s.meshChanged before raises).reed = s.reed ∧ (s.meshChanged before raises).front = s.front ∧
      (s.meshChanged before raises).serve = s.serve ∧ (s.meshChanged before raises).runtime = s.runtime ∧
      (s.meshChanged before raises).tree = s.tree ∧ (s.meshChanged before raises).ports = s.ports ∧
      (s.meshChanged before raises).links = s.links ∧ (s.meshChanged before raises).jtag = s.jtag ∧
      (s.meshChanged before raises).cores = s.cores ∧
      (s.meshChanged before raises).fresh = s.fresh := by
  unfold State.meshChanged
  dsimp only
  repeat' split
  all_goals simp

/-- Flits leave a port. -/
@[simp] theorem State.sendSlots_frame (s : State) (port : PortId) (p : Port) (flits : List (List Byte)) :
    (s.sendSlots port p flits).pending = s.pending ∧ (s.sendSlots port p flits).power = s.power ∧
      (s.sendSlots port p flits).life = s.life ∧ (s.sendSlots port p flits).sensors = s.sensors ∧
      (s.sendSlots port p flits).ledger = s.ledger ∧ (s.sendSlots port p flits).log = s.log ∧
      (s.sendSlots port p flits).uhleg = s.uhleg ∧ (s.sendSlots port p flits).update = s.update ∧
      (s.sendSlots port p flits).mailbox = s.mailbox ∧ (s.sendSlots port p flits).corePort = s.corePort ∧
      (s.sendSlots port p flits).can = s.can ∧ (s.sendSlots port p flits).unlock = s.unlock ∧
      (s.sendSlots port p flits).fuses = s.fuses ∧ (s.sendSlots port p flits).time = s.time ∧
      (s.sendSlots port p flits).mem = s.mem ∧ (s.sendSlots port p flits).memctl = s.memctl ∧
      (s.sendSlots port p flits).cache = s.cache ∧ (s.sendSlots port p flits).cells = s.cells ∧
      (s.sendSlots port p flits).reed = s.reed ∧ (s.sendSlots port p flits).front = s.front ∧
      (s.sendSlots port p flits).serve = s.serve ∧ (s.sendSlots port p flits).runtime = s.runtime ∧
      (s.sendSlots port p flits).tree = s.tree ∧ (s.sendSlots port p flits).links = s.links ∧
      (s.sendSlots port p flits).pcie = s.pcie ∧ (s.sendSlots port p flits).jtag = s.jtag ∧
      (s.sendSlots port p flits).cores = s.cores ∧
      (s.sendSlots port p flits).fresh = s.fresh := by
  simp [State.sendSlots]

/-- A control flit leaves a port. -/
@[simp] theorem State.sendControl_frame (s : State) (port : PortId) (body : List Byte) :
    (s.sendControl port body).pending = s.pending ∧ (s.sendControl port body).power = s.power ∧
      (s.sendControl port body).life = s.life ∧ (s.sendControl port body).sensors = s.sensors ∧
      (s.sendControl port body).ledger = s.ledger ∧ (s.sendControl port body).log = s.log ∧
      (s.sendControl port body).uhleg = s.uhleg ∧ (s.sendControl port body).update = s.update ∧
      (s.sendControl port body).mailbox = s.mailbox ∧ (s.sendControl port body).corePort = s.corePort ∧
      (s.sendControl port body).can = s.can ∧ (s.sendControl port body).unlock = s.unlock ∧
      (s.sendControl port body).fuses = s.fuses ∧ (s.sendControl port body).time = s.time ∧
      (s.sendControl port body).mem = s.mem ∧ (s.sendControl port body).memctl = s.memctl ∧
      (s.sendControl port body).cache = s.cache ∧ (s.sendControl port body).cells = s.cells ∧
      (s.sendControl port body).reed = s.reed ∧ (s.sendControl port body).front = s.front ∧
      (s.sendControl port body).serve = s.serve ∧ (s.sendControl port body).runtime = s.runtime ∧
      (s.sendControl port body).tree = s.tree ∧ (s.sendControl port body).links = s.links ∧
      (s.sendControl port body).pcie = s.pcie ∧ (s.sendControl port body).jtag = s.jtag ∧
      (s.sendControl port body).cores = s.cores ∧
      (s.sendControl port body).fresh = s.fresh := by
  simp [State.sendControl]

/-- What waits at a port is sent. -/
@[simp] theorem State.pump_frame (s : State) (port : PortId) :
    (s.pump port).pending = s.pending ∧ (s.pump port).power = s.power ∧ (s.pump port).life = s.life ∧
      (s.pump port).sensors = s.sensors ∧ (s.pump port).log = s.log ∧ (s.pump port).uhleg = s.uhleg ∧
      (s.pump port).update = s.update ∧ (s.pump port).mailbox = s.mailbox ∧ (s.pump port).corePort = s.corePort ∧
      (s.pump port).can = s.can ∧ (s.pump port).unlock = s.unlock ∧ (s.pump port).fuses = s.fuses ∧
      (s.pump port).time = s.time ∧ (s.pump port).mem = s.mem ∧ (s.pump port).memctl = s.memctl ∧
      (s.pump port).cache = s.cache ∧ (s.pump port).cells = s.cells ∧ (s.pump port).reed = s.reed ∧
      (s.pump port).front = s.front ∧ (s.pump port).serve = s.serve ∧ (s.pump port).runtime = s.runtime ∧
      (s.pump port).tree = s.tree ∧ (s.pump port).links = s.links ∧ (s.pump port).pcie = s.pcie ∧
      (s.pump port).jtag = s.jtag ∧
      (s.pump port).cores = s.cores ∧ (s.pump port).fresh = s.fresh := by
  unfold State.pump
  dsimp only
  split <;> simp

/-- A transaction is handed to a port. -/
@[simp] theorem State.sendTransaction_frame (s : State) (port : PortId) (kind : Nat) (tag : Option Nat) (bytes : List Byte) :
    (s.sendTransaction port kind tag bytes).pending = s.pending ∧ (s.sendTransaction port kind tag bytes).power = s.power ∧
      (s.sendTransaction port kind tag bytes).life = s.life ∧ (s.sendTransaction port kind tag bytes).sensors = s.sensors ∧
      (s.sendTransaction port kind tag bytes).log = s.log ∧ (s.sendTransaction port kind tag bytes).uhleg = s.uhleg ∧
      (s.sendTransaction port kind tag bytes).update = s.update ∧ (s.sendTransaction port kind tag bytes).mailbox = s.mailbox ∧
      (s.sendTransaction port kind tag bytes).corePort = s.corePort ∧ (s.sendTransaction port kind tag bytes).can = s.can ∧
      (s.sendTransaction port kind tag bytes).unlock = s.unlock ∧ (s.sendTransaction port kind tag bytes).fuses = s.fuses ∧
      (s.sendTransaction port kind tag bytes).time = s.time ∧ (s.sendTransaction port kind tag bytes).mem = s.mem ∧
      (s.sendTransaction port kind tag bytes).memctl = s.memctl ∧ (s.sendTransaction port kind tag bytes).cache = s.cache ∧
      (s.sendTransaction port kind tag bytes).cells = s.cells ∧ (s.sendTransaction port kind tag bytes).reed = s.reed ∧
      (s.sendTransaction port kind tag bytes).front = s.front ∧ (s.sendTransaction port kind tag bytes).serve = s.serve ∧
      (s.sendTransaction port kind tag bytes).runtime = s.runtime ∧ (s.sendTransaction port kind tag bytes).tree = s.tree ∧
      (s.sendTransaction port kind tag bytes).links = s.links ∧ (s.sendTransaction port kind tag bytes).pcie = s.pcie ∧
      (s.sendTransaction port kind tag bytes).jtag = s.jtag ∧
      (s.sendTransaction port kind tag bytes).cores = s.cores ∧ (s.sendTransaction port kind tag bytes).fresh = s.fresh := by
  unfold State.sendTransaction
  dsimp only
  split <;> simp

/-! ### Ledger values -/

/-- Two elements have one key only where they are the same element, for sub-indices and elements within their ranges. -/
theorem ledgerKey_eq {i j a b m n : Nat} (ha : a < 256) (hb : b < 256) (hm : m < 65536) (hn : n < 65536)
    (h : ledgerKey i a m = ledgerKey j b n) : i = j ∧ a = b ∧ m = n := by
  unfold ledgerKey at h
  omega

theorem putValue_same (m : Sparse Nat) (d k v : Nat) : (Sparse.find? (putValue m d k v) k).getD d = v := by
  unfold putValue
  split
  · next h => rw [Sparse.find?_erase_same, h]; rfl
  · rw [Sparse.find?_put_same]; rfl

theorem putValue_other (m : Sparse Nat) (d v : Nat) {k n : Nat} (h : n ≠ k) :
    Sparse.find? (putValue m d k v) n = Sparse.find? m n := by
  unfold putValue
  split
  · exact Sparse.find?_erase_other m h
  · exact Sparse.find?_put_other m v h

/-- No update of a value changes a default. -/
@[simp] theorem State.setLed_ledgerDefault (s : State) (index sub elem v i j : Nat) :
    (s.setLed index sub elem v).ledgerDefault i j = s.ledgerDefault i j := rfl

/-- An element holds the value that was set. -/
@[simp] theorem State.led_setLed_same (s : State) (index sub elem v : Nat) :
    (s.setLed index sub elem v).led index sub elem = v := putValue_same _ _ _ _

/-- Every other element holds what it held. -/
theorem State.led_setLed_other (s : State) (index sub elem v : Nat) {i j e : Nat}
    (h : ledgerKey i j e ≠ ledgerKey index sub elem) : (s.setLed index sub elem v).led i j e = s.led i j e := by
  unfold State.led
  rw [State.setLed_ledgerDefault]
  exact congrArg (fun x => Option.getD x _) (putValue_other _ _ _ h)

/-- Storing a value changes no block. -/
@[simp] theorem State.led_storeLed (s : State) (index sub elem v i j e : Nat) :
    (s.storeLed index sub elem v).led i j e = s.led i j e := rfl

/-- A persisted element holds the value that was set. -/
@[simp] theorem State.led_setStored_same (s : State) (index sub elem v : Nat) :
    (s.setStored index sub elem v).led index sub elem = v := s.led_setLed_same index sub elem v

theorem State.led_setStored_other (s : State) (index sub elem v : Nat) {i j e : Nat}
    (h : ledgerKey i j e ≠ ledgerKey index sub elem) : (s.setStored index sub elem v).led i j e = s.led i j e :=
  s.led_setLed_other index sub elem v h

/-- A counter after it advances. -/
theorem State.led_bump_same (s : State) (index sub elem k : Nat) (h : k ≠ 0) :
    (s.bump index sub elem k).led index sub elem = pastTop (8 * entryWidth index sub) (s.led index sub elem + k) := by
  rw [State.bump, if_neg h, State.led_setLed_same]

theorem State.led_bump_other (s : State) (index sub elem k : Nat) {i j e : Nat}
    (h : ledgerKey i j e ≠ ledgerKey index sub elem) : (s.bump index sub elem k).led i j e = s.led i j e := by
  unfold State.bump
  split
  · rfl
  · exact s.led_setLed_other index sub elem _ h

/-- A sum that fits its register is kept. -/
theorem pastTop_of_lt {w v : Nat} (h : v < 2 ^ w) : pastTop w v = v := if_pos h

/-- What a counter holds fits its register. -/
theorem pastTop_lt (w v : Nat) : pastTop w v < 2 ^ w := by
  unfold pastTop
  split
  · assumption
  · exact Nat.mod_lt _ (Nat.two_pow_pos w)

/-! ### Ports -/

@[simp] theorem State.port_setPort_same (s : State) (p : Nat) (x : Port) : (s.setPort p x).port p = x :=
  Sparse.get_set_same _ _ _ _

theorem State.port_setPort_other (s : State) {p n : Nat} (x : Port) (h : n ≠ p) : (s.setPort p x).port n = s.port n :=
  Sparse.get_set_other _ _ x h

@[simp] theorem State.link_setLink_same (s : State) (p : Nat) (x : PortWork) : (s.setLink p x).link p = x :=
  Sparse.get_set_same _ _ _ _

theorem State.link_setLink_other (s : State) {p n : Nat} (x : PortWork) (h : n ≠ p) :
    (s.setLink p x).link n = s.link n := Sparse.get_set_other _ _ x h

/-! ### Queues and counters -/

@[simp] theorem State.queue_setQueue_same (s : State) (q : Nat) (x : Queue) : (s.setQueue q x).queue q = x := by
  simp only [State.queue, State.setQueue]
  split
  · next h => rw [Sparse.find?_erase_same, h]; rfl
  · rw [Sparse.find?_put_same]; rfl

theorem State.queue_setQueue_other (s : State) {q p : Nat} (x : Queue) (h : p ≠ q) :
    (s.setQueue q x).queue p = s.queue p := by
  simp only [State.queue, State.setQueue]
  split
  · rw [Sparse.find?_erase_other _ h]
  · rw [Sparse.find?_put_other _ _ h]

@[simp] theorem State.work_setWork_same (s : State) (q : Nat) (x : QueueWork) : (s.setWork q x).work q = x :=
  Sparse.get_set_same _ _ _ _

theorem State.work_setWork_other (s : State) {q p : Nat} (x : QueueWork) (h : p ≠ q) :
    (s.setWork q x).work p = s.work p := Sparse.get_set_other _ _ x h

@[simp] theorem State.work_setQueue (s : State) (q p : Nat) (x : Queue) : (s.setQueue q x).work p = s.work p := rfl
@[simp] theorem State.queue_setWork (s : State) (q p : Nat) (x : QueueWork) : (s.setWork q x).queue p = s.queue p := rfl
@[simp] theorem State.counter_setQueue (s : State) (q c : Nat) (x : Queue) : (s.setQueue q x).counter c = s.counter c := rfl
@[simp] theorem State.counter_setWork (s : State) (q c : Nat) (x : QueueWork) : (s.setWork q x).counter c = s.counter c := rfl
@[simp] theorem State.queue_setCounter (s : State) (q c : Nat) (x : Counter) : (s.setCounter c x).queue q = s.queue q := rfl
@[simp] theorem State.work_setCounter (s : State) (q c : Nat) (x : Counter) : (s.setCounter c x).work q = s.work q := rfl

@[simp] theorem State.counter_setCounter_same (s : State) (c : Nat) (x : Counter) : (s.setCounter c x).counter c = x :=
  Sparse.get_set_same _ _ _ _

theorem State.counter_setCounter_other (s : State) {c k : Nat} (x : Counter) (h : k ≠ c) :
    (s.setCounter c x).counter k = s.counter k := Sparse.get_set_other _ _ x h

/-! ### Cells and arrays -/

/-- A cell buffer byte after a write (R229): offsets of different cells never meet below 8 MiB. -/
theorem State.bufRead_bufWrite_same (s : State) (c off : Nat) (l : List Byte) :
    (s.bufWrite c off l).bufRead c off l.length = l := Sparse.read_write _ _ _ _

theorem State.bufRead_bufWrite_other (s : State) (c off : Nat) (l : List Byte) (d b n : Nat)
    (h : d * 2 ^ 23 + b + n ≤ c * 2 ^ 23 + off ∨ c * 2 ^ 23 + off + l.length ≤ d * 2 ^ 23 + b) :
    (s.bufWrite c off l).bufRead d b n = s.bufRead d b n := Sparse.read_write_other _ _ _ _ _ _ h

@[simp] theorem State.reedOps_setReedOps_same (s : State) (c : Nat) (l : List ReedOp) :
    (s.setReedOps c l).reedOps c = l := Sparse.get_set_same _ _ _ _

theorem State.reedOps_setReedOps_other (s : State) {c d : Nat} (l : List ReedOp) (h : d ≠ c) :
    (s.setReedOps c l).reedOps d = s.reedOps d := Sparse.get_set_other _ _ l h

@[simp] theorem State.health_setHealth_same (s : State) (c : Nat) (x : ReedHealth) : (s.setHealth c x).health c = x :=
  Sparse.get_set_same _ _ _ _

theorem State.health_setHealth_other (s : State) {c d : Nat} (x : ReedHealth) (h : d ≠ c) :
    (s.setHealth c x).health d = s.health d := Sparse.get_set_other _ _ x h

@[simp] theorem State.sensor_setSensor_same (s : State) (n : Nat) (x : SensorState) : (s.setSensor n x).sensor n = x :=
  Sparse.get_set_same _ _ _ _

theorem State.sensor_setSensor_other (s : State) {n k : Nat} (x : SensorState) (h : k ≠ n) :
    (s.setSensor n x).sensor k = s.sensor k := Sparse.get_set_other _ _ x h

end Sys2Proof.Machine
end

