-- ==== Sys2Proof/Laws/Memory.lean ====
section
/-! SUPPORT. Laws/Memory.lean: reading the stacked memory after writing it, and that every operation that writes it keeps
its canonical form. -/

namespace Sys2Proof.Machine

/-! ### Reading after writing -/

/-- What was written reads back. -/
theorem State.memRead_memWrite_same (s : State) (a : Nat) (l : List Byte) : (s.memWrite a l).memRead a l.length = l :=
  Sparse.read_write _ _ _ _

/-- A span clear of the bytes written reads as before. -/
theorem State.memRead_memWrite_other (s : State) (a : Nat) (l : List Byte) (b n : Nat)
    (h : b + n ≤ a ∨ a + l.length ≤ b) : (s.memWrite a l).memRead b n = s.memRead b n :=
  Sparse.read_write_other _ _ _ _ _ _ h

@[simp] theorem State.length_memRead (s : State) (a n : Nat) : (s.memRead a n).length = n := Sparse.length_read _ _ _ _

/-- A span is the same where its memory is. -/
theorem State.memRead_congr {s t : State} (h : t.mem = s.mem) (a n : Nat) : t.memRead a n = s.memRead a n := by
  unfold State.memRead
  rw [h]

/-! ### The canonical form -/

/-- The memory at reset is canonical. -/
theorem reset_memory_wf : Memory.wf State.reset.mem = true := rfl

/-- A write keeps the canonical form. -/
theorem State.memWrite_wf (s : State) (a : Nat) (l : List Byte) (w : Memory.wf s.mem = true) :
    Memory.wf (s.memWrite a l).mem = true := Sparse.wf_write 0 l s.mem a w

/-- A fold of operations that each keep the memory keeps it. -/
theorem foldl_mem {β : Type} (g : State → β → State) (h : ∀ s x, (g s x).mem = s.mem) (l : List β) (s : State) :
    (l.foldl g s).mem = s.mem := by
  induction l generalizing s with
  | nil => rfl
  | cons x t ih => exact (ih _).trans (h s x)

@[simp] theorem State.stopRefresh_mem (s : State) : s.stopRefresh.mem = s.mem := by
  unfold State.stopRefresh State.hotOff
  dsimp only
  split <;> simp

@[simp] theorem State.stopPorts_mem (s : State) (g : Option Nat) : (s.stopPorts g).mem = s.mem := by
  unfold State.stopPorts
  dsimp only
  refine foldl_mem _ (fun s p => ?_) _ s
  split
  · cases g <;> simp [State.portGoesDown]
  · rfl

@[simp] theorem State.mainStop_mem (s : State) : s.mainStop.mem = s.mem := by
  have h : s.stopRefresh.abandonProgramming.mem = s.stopRefresh.mem := by
    unfold State.abandonProgramming
    generalize countFrom 0 256 = l
    exact foldl_mem _ (fun s i => by split <;> rfl) l _
  simp only [State.mainStop, h, State.stopRefresh_mem]

@[simp] theorem State.enterPeat_mem (s : State) (c : Nat) (f : Option Word) : (s.enterPeat c f).mem = s.mem := by
  unfold State.enterPeat State.peatEndpoint State.mainReset
  dsimp only
  repeat' split
  all_goals simp

@[simp] theorem State.failStart_mem (s : State) (r d : Nat) (p : Option (Option Word)) : (s.failStart r d p).mem = s.mem := by
  have h : (s.endAttempt r d).mem = s.mem := by
    unfold State.endAttempt State.runtimeFallback State.recordFailure State.failUpdate
    dsimp only
    split <;> simp
  unfold State.failStart
  dsimp only
  repeat' split
  all_goals simp [h]

/-- A class D cause leaves the memory as it was. -/
@[simp] theorem State.classD_mem (s : State) (code rank unit : Nat) (source : List Byte) :
    (s.classD code rank unit source).mem = s.mem := by
  unfold State.classD
  repeat' split
  all_goals simp

@[simp] theorem State.readLine_mem (s : State) (hw : Hw) (g : Nat) : (s.readLine hw g).mem = s.mem := by
  unfold State.readLine State.loseGranule
  dsimp only
  split <;> simp

/-- Memory stays canonical when a line leaves its slice. -/
theorem State.evict_wf (s : State) (hw : Hw) (l : Line) (w : Memory.wf s.mem = true) : Memory.wf (s.evict hw l).mem = true := by
  have h : Memory.wf ({ s with cache := { s.cache with lines := otherLines s.cache.lines l.addr } } : State).mem = true := w
  unfold State.evict
  dsimp only
  repeat' split
  · refine Sparse.wf_write 0 _ _ _ ?_
    rw [State.readLine_mem]
    exact h
  · rw [State.readLine_mem]
    exact h
  · exact h

/-- Flushing the caches keeps it (R174, R193). -/
theorem State.flushLines_wf (s : State) (hw : Hw) (w : Memory.wf s.mem = true) : Memory.wf (s.flushLines hw).mem = true := by
  unfold State.flushLines
  dsimp only
  generalize s.cache.lines = l
  induction l generalizing s with
  | nil => exact w
  | cons x t ih => exact ih _ (s.evict_wf hw x w)

/-- A write under byte enables keeps it. -/
theorem writeMasked_wf (m : List Host.Cell) (a : Nat) (l : List (Option Byte)) (w : Memory.wf m = true) :
    Memory.wf (Sparse.writeMasked 0 m a l) = true := Sparse.wf_writeMasked 0 l m a w

end Sys2Proof.Machine
end

