-- ==== Sys2Proof/Machine/Pins.lean ====
section
/-! DEFINITION. Machine/Pins.lean: what this device drives on its sideband lands (R99, R100, R118, R119, R708, R716,
R717). -/

namespace Sys2Proof.Machine

/-- What a land is driven to: a level, or nothing. -/
inductive Drive where
  | low | high | released
  deriving DecidableEq, Repr

/-- The always-on domain has power. -/
def State.alwaysOn (s : State) : Bool := s.power.inWindow.vaux33

/-- SERVE_OK, an open-drain output of the always-on domain: low, or released (R100, R708). -/
def State.serveOkPin (s : State) : Drive := if s.alwaysOn && s.life.serveOkLow then .low else .released

/-- SERVE_OK as the tray manager reads it through the pull-up to VIO18 of the same device (R118). -/
def State.serveOkReads (s : State) : Bool := s.serveOkPin == .released && s.power.inWindow.vio18

/-- HALT_N, an open-drain output: low while the device asserts it (R99, R708). -/
def State.haltNPin (s : State) : Drive := if s.alwaysOn && s.life.haltAsserted then .low else .released

/-- PRSNT_N is ground in every fitted package, with power or without (R119, R708). -/
def prsntNPin : Drive := .low

/-- Uhleg drives CAN_TX: it has booted and is not restarting (R594, R716). -/
def State.canDriven (s : State) : Bool := s.alwaysOn && (s.uhleg.phase == .firmware || s.uhleg.phase == .recovery)

/-- CAN_TX between frames, and UART_TX between characters: high, with the domain unpowered nothing (R708, R716, R717). -/
def State.idleTxPin (s : State) : Drive := if s.alwaysOn then .high else .released

end Sys2Proof.Machine
end

