-- ==== Sys2Proof/Tests/Slice0.lean ====
section
/-! SUPPORT. Tests/Slice0.lean: tests of the model on small states, and for each statement a state and operands that meet its
hypotheses. Expected values come from the rules named. -/

set_option Elab.async false

namespace Sys2Proof.Tests

open Machine

/-! ### States to test on -/

/-- What the hardware meets is nothing. -/
def calm : Hw := ⟨[], [], [], [], [], [], []⟩

/-- The part in a state, with every main rail in its window, Uhleg running and the runtime ready. -/
def part (state : DevState) : State :=
  { State.reset with
    power := ⟨⟨true, true, true, true, true, false⟩, none, true, true, 0xFF, false, false, true, 5000⟩
    life := { State.reset.life with
      state := state, serveOkLow := decide (state ≠ .inService), resetHigh := true, perstHigh := true }
    sensors := { State.reset.sensors with refreshing := true }
    uhleg := { State.reset.uhleg with phase := .firmware }
    serve := { ServeRegs.blank with status := 1 }
    pcie := { Pcie.blank with enabled := true, up := true } }

/-- A header that names cells and no counter. -/
def naming (mask : BitVec 16) : Header := ⟨false, false, mask, false, 0⟩

/-- A queue whose ring of 16 records lies at local address 0, with one record published. -/
def oneRecord (q : Nat) : Queue := { Queue.blank q with enable := true, state := .idle, tail := 1, laneCount := 256 }

/-- The cells of memory that hold bytes from an address on. -/
def bytesAt (a : Nat) (l : List Byte) : List Host.Cell := ((countFrom a l.length).zip l).filter fun x => x.2 != 0

/-- The part in READY, with one record at the head of a queue's ring, and more in memory behind it. -/
def holding (q : QueueId) (record : List Byte) (more : List Host.Cell := []) : State :=
  { (part .ready).setQueue q (oneRecord q) with mem := bytesAt 0 record ++ more }

/-- The issue of the first record of a queue. -/
def issueOf (q : QueueId) (h : Header) : Issue := ⟨q, .ring 0, h, calm⟩

/-- The next state of a command, when it has one. -/
def after (c : Instr) (s : State) : State :=
  match exec c s with
  | .next t => t
  | _ => State.reset

end Sys2Proof.Tests

namespace Sys2Proof.Tests

open Machine

/-! ### Ill-formed commands -/

/-- A stage with nothing found. -/
def stageOk : StageWork := ⟨none, false, ⟨0, 0, 0⟩, [], [], [], none⟩
/-- A call on a path. -/
def callOn (p : LedgerPath) : LedgerCall := ⟨p, true, ⟨List.replicate 6 0, List.replicate 6 0, 0⟩, calm⟩

theorem test_ten_stages_ill : (Instr.startAttempt ⟨false, List.replicate 10 stageOk, 0, none⟩).wellFormed = false := by decide +kernel
theorem test_stage_after_failure_ill :
    (Instr.startAttempt ⟨false, [{ stageOk with failed := some 0 }, stageOk], 0, none⟩).wellFormed = false := by decide +kernel
theorem test_monitors_ill : (Instr.ledgerRead { callOn .mailbox with monitors := ⟨[], [], 0⟩ }).wellFormed = false := by decide +kernel
theorem test_can_frame_ill : (Instr.ledgerRead (callOn (.can 0 (List.replicate 9 0)))).wellFormed = false := by decide +kernel
theorem test_call_hw_ill :
    (Instr.ledgerRead { callOn .mailbox with hw := { calm with mem := [⟨2 ^ 30, 0, none⟩] } }).wellFormed = false := by
  decide +kernel
theorem test_call_well_formed : (Instr.ledgerRead (callOn (.can 0 (List.replicate 12 0)))).wellFormed = true := by decide +kernel
theorem test_segment_ill : (Instr.segmentDown 0 (List.replicate 65 0)).wellFormed = false := by decide +kernel
theorem test_hole_ill : (Instr.scrubRead [⟨3 * 2 ^ 24, 0, none⟩]).wellFormed = false := by decide +kernel
theorem test_codeword_bit_ill : (Instr.scrubRead [⟨0, 0, some 136⟩]).wellFormed = false := by decide +kernel
theorem test_request_address_ill : (Instr.memRequest (.enter [⟨.pcie, .p2, 64, none⟩] calm)).wellFormed = false := by decide +kernel
theorem test_request_write_ill : (Instr.memRequest (.enter [⟨.pcie, .p3, 0, some [none]⟩] calm)).wellFormed = false := by decide +kernel
theorem test_request_class_ill :
    (Instr.memRequest (.issue 0 0 calm [⟨.pcie, .p2, 0, some (List.replicate 128 none)⟩])).wellFormed = false := by decide +kernel
theorem test_hw_ill : (Instr.nop ⟨0, .ring 0, naming 0, { calm with mem := [⟨2 ^ 30, 0, none⟩] }⟩).wellFormed = false := by
  decide +kernel
theorem test_pulses_ill : (Instr.commandCompletion 0 (.ring 0) [⟨[(3, true, 1), (3, true, 2)], none⟩] calm).wellFormed = false := by
  decide +kernel
theorem test_counts_ill : (Instr.testCheck 0 [[]]).wellFormed = false := by decide +kernel
theorem test_frame_ill : (Instr.frameReceived 0 ⟨[], []⟩).wellFormed = false := by decide +kernel
theorem test_training_ill : (Instr.portTrainingAttempt 0 ⟨[], [], [], [], 0, 0, false, []⟩).wellFormed = false := by decide +kernel
theorem test_bar_write_ill : (Instr.bar0RegisterWrite ⟨0, [], false⟩).wellFormed = false := by decide +kernel
theorem test_bypass_ill : (Instr.bypass 0x80).wellFormed = false := by decide +kernel
theorem test_factory_ill : (Instr.factoryTest 0xFF).wellFormed = false := by decide +kernel
theorem test_ident_ill : (Instr.ident 0 1000001).wellFormed = false := by decide +kernel

/-- No row of the table has bits, so no word spells a command. -/
theorem test_no_word_spells (n w : Nat) : decodeTableWord n w = none := rfl

end Sys2Proof.Tests

namespace Sys2Proof.Tests

open Machine

/-! ### Witnesses: the machine, power and start -/

/-- StepRunsFrontCommand. -/
theorem witness_front : { State.reset with pending := [.idcode, .extest] }.pending = .idcode :: [.extest] := rfl

/-- IdleStepIsOneClock, with UCLK running and without. -/
theorem witness_idle : (part .ready).pending = [] ∧
    (part .ready).power.inWindow.vaux33 = true ∧ (part .ready).power.clocksStopped = false ∧
    State.reset.pending = [] ∧ State.reset.power.inWindow.vaux33 = false := by decide +kernel

/-- StepKeepsInvariant: a part in service that takes a command. -/
theorem witness_invariant : Safety.Inv { part .inService with pending := [.timeSliceExpiry .oven] } ∧
    step { part .inService with pending := [.timeSliceExpiry .oven] } =
      .next { part .inService with front := { (part .inService).front with sliceOver := true } } := by
  exact ⟨⟨by decide +kernel, by decide +kernel, by decide +kernel, by decide +kernel⟩, rfl⟩

/-- CommandsKeepQueueAndFuses. -/
theorem witness_exec_next : exec .idcode (part .ready) = .next (after .idcode (part .ready)) := rfl

/-- StandbyPowerComesAndGoes. -/
theorem witness_standby_power : State.reset.life.state = .off ∧ State.reset.power.inWindow.vaux33 = false ∧
    (part .ready).power.inWindow.vaux33 = true := by decide +kernel

/-- RailsEnterAndLeaveTheirWindows: a rail ahead of its turn, windows met at their ends (R74), and an excursion in READY. -/
theorem witness_rails : (part .standby).awake = true ∧ Rail.vio18 ∈ railsBefore .vmem ∧
    (let s := { part .standby with power := { (part .standby).power with inWindow := RailMarks.none.set true .vaux33 } };
      s.awake = true ∧ s.power.inWindow.get .vmem = false ∧ s.power.inWindow.get .vio18 = false ∧
        s.inWindow .vmem 1067 = true) ∧ Rail.vio18 ∈ mainRails ∧ (part .ready).power.inWindow.get .vio18 = true ∧
    (part .ready).inWindow .vio18 1709 = false ∧ (part .ready).inWindow .vio18 1710 = true ∧ (part .ready).awake = true ∧
    (part .ready).serving = true := by decide +kernel

/-- LossesOfLock: the root PLL in READY, the end of its holdover with a cause found, the return of REFCLK, a lane PLL with
REFCLK good and bad, in READY and in STARTING. -/
theorem witness_lock : let s := part .ready;
    s.awake = true ∧ s.power.rootLock = true ∧ s.serving = true ∧ s.power.laneLock.getLsbD 7 = true ∧
    s.power.refclk = true ∧ { s with power := { s.power with refclk := false } }.power.refclk = false ∧
    (part .starting).life.state = .starting ∧ (part .standby).life.state ≠ .starting ∧
    (let t := { s with power := { s.power with rootLock := false, holdover := true, refclk := false }
                       life := { s.life with causes := [⟨0x1701, 0, []⟩] } };
      t.awake = true ∧ t.power.holdover = true ∧ t.power.refclk = false ∧ t.serving = true ∧ t.life.causes ≠ [] ∧
        t.power.inWindow.vaux33 = true ∧ t.power.rootLock = false) := by decide +kernel

/-- ResetAndStartAttempts: pulses at 999 and 1,000 ns; the states; a start as R98 asks, with BOOT_SAFE low, and high. -/
theorem witness_reset_start : 999 < 1000 ∧ 1000 ≤ 1000 ∧ (part .halted).life.state = .halted ∧ (part .peat).life.state = .peat ∧
    (let s := { part .standby with life := { (part .standby).life with resetHigh := false } };
      s.railsReady = true ∧ s.life.resetHigh = false ∧ s.led 0x1100 0x03 < 3 ∧
        3 ≤ (s.setLed 0x1100 0x03 0 3).led 0x1100 0x03 ∧ (s.setLed 0x1100 0x03 0 3).railsReady = true) ∧
    (⟨false, [], 0, none⟩ : Attempt).stages = [] ∧ (⟨true, [], 0, none⟩ : Attempt).bootSafe = true := by decide +kernel

/-- A start in a stage. -/
def atStage (n : Nat) : State := { part .starting with life := { (part .starting).life with stage := n } }
/-- StagesAndTheirTime: a stage from 1 to 7 that ends well or fails, stages 1 and 9 that overrun, stage 10 that runs out. -/
theorem witness_stages : (atStage 7).attemptRuns = true ∧ (atStage 10).attemptRuns = true ∧ 1 ≤ (atStage 7).life.stage ∧ (atStage 7).life.stage ≤ 7 ∧
    (⟨false, [stageOk], 0, none⟩ : Attempt).stages = [stageOk] ∧ stageOk.errors = [] ∧ stageOk.failed = none ∧
    ({ stageOk with failed := some 4 } : StageWork).failed = some 4 ∧ (atStage 1).life.stage < 10 ∧ (atStage 9).life.stage < 10 ∧
    (atStage 10).life.stage = 10 := by decide +kernel

/-- ConversionIsKept: readings at the ends of the range of R93, a failed sensor, a monitor. -/
theorem witness_conversion : (part .ready).awake = true ∧ ((part .ready).sensor 27).failed = false ∧ (-320 : Int) ≤ -320 ∧
    (2400 : Int) ≤ 2400 ∧ ((after (.sensorConversion 3 (some 2401) false) (part .ready)).sensor 3).failed = true ∧
    isMonitor 38 true = true ∧ 38 ∉ (part .ready).sensors.monitorsFailed := by decide +kernel

/-- OrderlyHaltAndCoreErrors: a cause found in READY; a start in progress. -/
theorem witness_halt : let s := { part .ready with life := { (part .ready).life with causes := [⟨0x1201, 0, []⟩] } };
    s.serving = true ∧ primaryCause s.life.causes = some ⟨0x1201, 0, []⟩ ∧ haltReadable 0x1201 = true ∧
    (∀ l ∈ s.cache.lines, l.bad = false) ∧ (part .starting).life.state = .starting := by decide +kernel

/-- A part whose Uhleg restarts. -/
def restarting : State := { part .ready with uhleg := { (part .ready).uhleg with phase := .restarting 3 } }
/-- A record of the log's front. -/
def oneLog : LogRec := ⟨0, 0x0101, 1, 1, List.replicate 16 0⟩

/-- UhlegOnItsOwn. -/
theorem witness_uhleg : (part .ready).uhlegRuns = true ∧ restarting.awake = true ∧ restarting.uhleg.phase = .restarting 3 ∧
    (let s := { part .ready with uhleg := { (part .ready).uhleg with trial := true } };
      s.uhlegRuns = true ∧ s.uhleg.trial = true) ∧
    (let s := { part .ready with log := { (part .ready).log with front := [oneLog] } };
      s.uhlegRuns = true ∧ s.log.stopped = false ∧ s.log.front = oneLog :: [] ∧ (false || true) = true) ∧
    (let s := { part .ready with unlock := { (part .ready).unlock with holder := 1, state := 2 } };
      s.uhlegRuns = true ∧ s.unlock.holder ≠ 0 ∧ s.awake = true ∧ s.unlock.state = 2) := by decide +kernel

end Sys2Proof.Tests

namespace Sys2Proof.Tests

open Machine

/-! ### Witnesses: the Ledger and management -/

/-- A state whose mailbox holds a request for the whole of an entry. -/
def asking (s : State) (command index sub : Nat) (data : List Byte) : State :=
  { s with mailbox := { Mailbox.blank with
      state := 1, command := byte command, index := BitVec.ofNat 16 index, sub := byte sub
      reqLength := BitVec.ofNat 16 data.length, request := Sparse.write 0 [] 0 data } }

/-- The call of the mailbox. -/
def mailCall : LedgerCall := callOn .mailbox

/-- The request waits, and passes every check with a property of it. -/
def takes (s : State) (p : Request → Entry → Bool) : Bool :=
  let r := s.mailbox.request' 1
  match findEntry r.index r.sub with
  | some en => decide (s.mailbox.state = 1) && s.uhlegRuns && decide (r.command = 2) && decide (s.commonAbort r = none) &&
      decide (s.writeAbort r en = none) && p r en
  | none => false

theorem takes_accepted {s : State} {p : Request → Entry → Bool} (h : takes s p = true) :
    ∃ r en, Safety.accepted s mailCall r en ∧ p r en = true := by
  unfold takes at h
  dsimp only at h
  split at h
  · next en he =>
    simp only [Bool.and_eq_true, decide_eq_true_eq] at h
    obtain ⟨⟨⟨⟨⟨h1, h2⟩, h3⟩, h4⟩, h5⟩, h6⟩ := h
    exact ⟨_, en, ⟨⟨by simp [State.arrive, State.requestAt, mailCall, callOn, h1], h2, trivial⟩, h3, h4, he, h5, rfl⟩, h6⟩
  · simp at h

/-- ReadsAreAnswered: a READ and a DESCRIBE of 0x1100:01. -/
theorem witness_read : ∃ r en, Safety.asks (asking (part .ready) 1 0x1100 1 []) mailCall r ∧
    (asking (part .ready) 1 0x1100 1 []).commonAbort r = none ∧ findEntry r.index r.sub = some en ∧ r.command = 1 ∧
    r.rangeOk en = true := by
  refine ⟨(asking (part .ready) 1 0x1100 1 []).mailbox.request' 1, (findEntry 0x1100 1).get (by decide +kernel), ⟨?_, ?_, trivial⟩,
    ?_, ?_, ?_, ?_⟩ <;> decide +kernel
theorem witness_describe : Safety.asks (asking (part .ready) 3 0x1100 1 []) mailCall
      ((asking (part .ready) 3 0x1100 1 []).mailbox.request' 1) ∧
    (asking (part .ready) 3 0x1100 1 []).commonAbort ((asking (part .ready) 3 0x1100 1 []).mailbox.request' 1) = none ∧
    ((asking (part .ready) 3 0x1100 1 []).mailbox.request' 1).command = 3 := by
  exact ⟨⟨by decide +kernel, by decide +kernel, trivial⟩, by decide +kernel, by decide +kernel⟩

/-- RefusedWritesChangeNothing: an index that does not exist, and a read-only entry. -/
theorem witness_refused : ∃ code detail,
    Safety.asks (asking (part .ready) 2 0x0123 1 [0]) mailCall ((asking (part .ready) 2 0x0123 1 [0]).mailbox.request' 1) ∧
    (asking (part .ready) 2 0x0123 1 [0]).commonAbort ((asking (part .ready) 2 0x0123 1 [0]).mailbox.request' 1) =
      some (code, detail) := by
  exact ⟨_, _, ⟨by decide +kernel, by decide +kernel, trivial⟩, rfl⟩
theorem witness_read_only : ∃ en code detail,
    findEntry 0x1100 1 = some en ∧ (asking (part .ready) 2 0x1100 1 [0]).writeAbort
      ((asking (part .ready) 2 0x1100 1 [0]).mailbox.request' 1) en = some (code, detail) := by
  exact ⟨(findEntry 0x1100 1).get (by decide +kernel), _, _, by decide +kernel, rfl⟩

/-- A part in READY, unlocked for the mailbox. -/
def unlocked : State := { part .ready with unlock := { (part .ready).unlock with state := 1, holder := 1, minutes := 10 } }

/-- WritesTake: a plain entry, and one setting of each row. -/
theorem witness_plain_write : ∃ r en, Safety.accepted (asking (part .ready) 2 0x6400 0x10 [50, 0]) mailCall r en ∧
    decide (r.index ∉ [0x1100, 0x2100, 0x3400, 0x5000, 0x5400, 0x6000, 0x6800, 0x7000, 0x7800, 0x8000, 0x9000]) = true :=
  takes_accepted (p := fun r _ => decide (r.index ∉ [0x1100, 0x2100, 0x3400, 0x5000, 0x5400, 0x6000, 0x6800, 0x7000, 0x7800,
    0x8000, 0x9000])) (by decide +kernel)

/-- A request whose values fit what a statement asks. -/
theorem witness_settings : takes (asking (part .ready) 2 0x1100 0x11 [1]) (fun r _ => r.index == 0x1100 && r.sub == 0x11) = true ∧
    takes (asking (part .ready) 2 0x3000 0x40 [48, 0]) (fun r _ => r.sub == 0x40) = true ∧
    takes (asking (part .ready) 2 0x3400 1 ((List.replicate 16 [0, 1]).flatten)) (fun r _ => r.sub == 1) = true ∧
    takes (asking (part .ready) 2 0x5400 1 [0]) (fun r _ => r.sub == 1) = true ∧
    takes (asking (part .ready) 2 0x5400 2 [0, 16, 0, 0])
      (fun r en => decide ((part .ready).evictUnused.tree.nodes.length ≤ r.value en 0)) = true ∧
    takes (asking (part .ready) 2 0x5000 0x10 (List.replicate 64 0)) (fun r _ => r.sub == 0x10) = true ∧
    takes (asking (part .ready) 2 0x7000 2 [0xFF]) (fun r _ => r.sub == 2) = true := by decide +kernel

/-- A node that a sequence holds, and one more than a capacity of 1,024 leaves. -/
def heldNode : TreeNode := ⟨0, 0, none, 1, 0, 0, false, 1, [], []⟩
/-- A part whose tree holds 1,025 nodes in use. -/
def crowded : State := { part .ready with
  tree := { Tree.blank with nodes := (countFrom 0 1025).map fun n => (n, some heldNode) } }
theorem witness_capacity : takes (asking crowded 2 0x5400 2 [0, 4, 0, 0])
    (fun r en => decide (r.value en 0 < (asking crowded 2 0x5400 2 [0, 4, 0, 0]).evictUnused.tree.nodes.length)) = true := by
  decide +kernel
theorem witness_no_write : Safety.asks (asking (part .ready) 1 0x3000 0x40 []) mailCall
    ((asking (part .ready) 1 0x3000 0x40 []).mailbox.request' 1) ∧
    ((asking (part .ready) 1 0x3000 0x40 []).mailbox.request' 1).command ≠ 2 :=
  ⟨⟨by decide +kernel, by decide +kernel, trivial⟩, by decide +kernel⟩

/-- A part in READY outside a mesh (0x1100:11 at 0). -/
def alone : State := (part .ready).setLed 0x1100 0x11 0 0
/-- ServiceAndItsDrain and HaltCommand. -/
theorem witness_service :
    takes (asking alone 2 0x1100 0x10 [1]) (fun r _ => r.writesValue 0x1100 0x10 1 && alone.enterRefusal == 0) = true ∧
    takes (asking (part .standby) 2 0x1100 0x10 [1]) (fun r _ => r.writesValue 0x1100 0x10 1 &&
      (part .standby).enterRefusal == 1) = true ∧
    takes (asking (part .inService) 2 0x1100 0x10 [2]) (fun r _ => r.writesValue 0x1100 0x10 2) = true ∧
    (part .inService).life.causes = [] ∧ (part .standby).life.state ≠ .inService ∧
    takes (asking (part .standby) 2 0x1100 0x10 [2]) (fun r _ => r.writesValue 0x1100 0x10 2) = true ∧
    takes (asking (part .inService) 2 0x1100 0x10 [3]) (fun r _ => r.writesValue 0x1100 0x10 3) = true ∧
    takes (asking (part .standby) 2 0x1100 0x10 [3]) (fun r _ => r.writesValue 0x1100 0x10 3) = true ∧
    primaryCause ((part .inService).life.causes ++ [⟨0x1F01, 0, [1, 0, 0, 0, 0, 0, 0, 0]⟩]) =
      some ⟨0x1F01, 0, [1, 0, 0, 0, 0, 0, 0, 0]⟩ := by decide +kernel
/-- A part in service that drains. -/
def draining : State := { part .inService with life := { (part .inService).life with drain := some .leaveService } }
theorem witness_drain : draining.life.state = .inService ∧ draining.life.drain.isSome = true ∧ draining.runtime.steps = [] ∧
    draining.life.causes = [] ∧ (part .ready).life.state ≠ .inService := by decide +kernel

/-- HistoryTimeAndRestartCommands: the start counter in HALTED and in READY, and the other commands. -/
theorem witness_history : takes (asking (part .halted) 2 0x1100 6 [1]) (fun r _ => r.writesValue 0x1100 6 1) = true ∧
    takes (asking (part .ready) 2 0x1100 6 [1]) (fun r _ => r.writesValue 0x1100 6 1) = true ∧
    takes (asking unlocked 2 0x9000 2 [1]) (fun r _ => r.writesValue 0x9000 2 1) = true ∧
    takes (asking unlocked 2 0x9000 3 [1]) (fun r _ => r.writesValue 0x9000 3 1) = true ∧
    takes (asking (part .ready) 2 0x8000 0x51 (toBytes 8 77)) (fun r en => r.writes 0x8000 [0x51] && r.value en 0 == 77) =
      true ∧
    takes (asking (part .ready) 2 0x8000 6 [1]) (fun r _ => r.writesValue 0x8000 6 1) = true := by decide +kernel

/-- The identity of edwards25519 as a key and a signature whose scalar is 0, for ten minutes: valid for every message. -/
def response : List Byte :=
  [1] ++ List.replicate 31 0 ++ [1] ++ List.replicate 63 0 ++ [10, 0, 0, 0] ++ List.replicate 28 0
/-- A part whose service key is that key. -/
def keyed : State := { part .ready with
  fuses := { (part .ready).fuses with serviceKeyHash := sha256 (response.take 32) } }
/-- ServiceUnlock: a response that is good, one that is not, and RELOCK. -/
theorem witness_unlock :
    takes (asking keyed 2 0x8000 0x31 response) (fun r _ => r.writes 0x8000 [0x31] && keyed.unlockOk r.data) = true ∧
    takes (asking (part .ready) 2 0x8000 0x31 response) (fun r _ => r.writes 0x8000 [0x31] &&
      !(part .ready).unlockOk r.data) = true ∧
    takes (asking unlocked 2 0x8000 0x35 [1]) (fun r _ => r.writesValue 0x8000 0x35 1) = true := by decide +kernel

/-- UpdateFlow: a part with an update of Uhleg firmware of 1,500 bytes in a status, with some of it received. -/
def updating (status received : Nat) : State :=
  { ((((part .ready).setLed 0x8000 0x45 0 status).setLed 0x8000 0x40 0 1).setLed 0x8000 0x41 0 1500).setLed 0x8000 0x43 0
      received with
    update := { (part .ready).update with targetBank := some .uhlegB } }
theorem witness_update :
    takes (asking (updating 0 0) 2 0x8000 0x44 [1]) (fun r _ => r.writesValue 0x8000 0x44 1) = true ∧
    (updating 0 0).updateOpen = true ∧ between 1 ((updating 0 0).led 0x8000 0x40) 2 = true ∧
    between 1 ((updating 0 0).led 0x8000 0x41) (256 + payloadLimit ((updating 0 0).led 0x8000 0x40)) = true ∧
    takes (asking (updating 1 1024) 2 0x8000 0x42 (List.replicate 1024 0)) (fun r _ => r.writes 0x8000 [0x42]) = true ∧
    (updating 1 1024).led 0x8000 0x45 = 1 ∧ (updating 1 1024).update.targetBank = some .uhlegB ∧
    (updating 1 1024).led 0x8000 0x43 < (updating 1 1024).led 0x8000 0x41 ∧
    takes (asking (updating 1 1500) 2 0x8000 0x44 [2]) (fun r _ => r.writesValue 0x8000 0x44 2) = true ∧
    (updating 1 1500).led 0x8000 0x43 = (updating 1 1500).led 0x8000 0x41 ∧
    takes (asking (updating 3 1500) 2 0x8000 0x44 [3]) (fun r _ => r.writesValue 0x8000 0x44 3) = true ∧
    (updating 3 1500).led 0x8000 0x45 = 3 ∧
    takes (asking (updating 3 1500) 2 0x8000 0x44 [4]) (fun r _ => r.writesValue 0x8000 0x44 4) = true ∧
    takes (asking (updating 3 1500) 2 0x8000 0x44 [2]) (fun r _ => r.writesValue 0x8000 0x44 2) = true ∧
    (updating 2 1500).uhlegRuns = true ∧ (updating 2 1500).led 0x8000 0x45 = 2 := by decide +kernel

/-- FlushTreeEvictsUnused. -/
theorem witness_flush : takes (asking (part .ready) 2 0x5400 0x40 [1]) (fun r _ => r.writesValue 0x5400 0x40 1) = true := by
  decide +kernel

/-- A download of requester 2 of 64 bytes, with none of its data yet. -/
def opened : Download := ⟨2, 0x08001040, [2, 0x21, 0, 0x90, 0, 0, 1, 0, 64, 0, 0, 0, 0, 0, 0, 0], [], 0⟩
/-- A part with that download open. -/
def loading : State := { part .ready with can := { (part .ready).can with downloads := [opened] } }

/-- CanTransfers: the segment expected, another one, and the controller bus-off and not. -/
theorem witness_segments : loading.uhlegRuns = true ∧ loading.can.busOff = false ∧ loading.ownFrame 0x09 0x09001040 = true ∧
    (loading.can.downloads.find? fun d => bits d.ident.toNat 0 8 == bits (0x09001040 : BitVec 29).toNat 0 8) = some opened ∧
    opened.data.length < opened.asRequest.length ∧
    imageNat (List.replicate 64 0) 0 2 = opened.next ∧ (List.replicate 64 (0 : Byte)).length = canLength (4 + opened.due) ∧
    imageNat ([1] ++ List.replicate 63 0) 0 2 ≠ opened.next ∧
    (loading.can.downloads.find? fun d => d.requester == (2 : Fin 8).val) = some opened ∧ loading.awake = true := by
  decide +kernel

end Sys2Proof.Tests

namespace Sys2Proof.Tests

open Machine

/-! ### Witnesses: memory, atomics and the Oven -/

/-- An address beyond every window of the shared cache, and one in a window. -/
def plainAddr : Nat := 2 ^ 28 + 128
/-- A read of one granule. -/
def readReq : MemReq := ⟨.dma 3, .p2, plainAddr, none⟩
/-- A write of one half of it. -/
def writeReq : MemReq := ⟨.pcie, .p3, plainAddr, some (List.replicate 64 (some 7) ++ List.replicate 64 none)⟩
/-- A part whose channel has one request. -/
def queued (r : MemReq) : State := after (.memRequest (.enter [r] calm)) (part .ready)
/-- That request as it waits there. -/
def waitingRead : Queued := ⟨readReq, false, gap 128, true⟩
/-- A part whose shared cache holds the line at 128, sound or not. -/
def cached (bad : Bool) : State := { part .ready with cache := ⟨[⟨128, false, gap 128, [2], bad⟩], []⟩ }
theorem calm_clean : Safety.clean calm := ⟨rfl, rfl, rfl, rfl, rfl, rfl⟩

/-- ChannelsServeRequests. -/
theorem witness_channels : (∀ r ∈ [readReq, writeReq], (part .ready).memoryRuns = true ∧ (part .ready).power.mainClocks = true ∧
    populated r.addr 128 = true ∧ (part .ready).cacheable r.addr = false ∧ r.source ≠ .scrub ∧
    ((part .ready).channel (channelOf r.addr)).queue.length < 16 ∧ ((part .ready).channel (channelOf r.addr)).outside = []) ∧
    ((queued readReq).channel (channelOf plainAddr)).choose = some (0, 0) ∧
    ((queued readReq).channel (channelOf plainAddr)).queue[((queued readReq).channel (channelOf plainAddr)).first 0]? =
      some waitingRead ∧ ((queued readReq).channel (channelOf plainAddr)).outside = [] ∧
    waitingRead.req.addr / 128 ∉ (queued readReq).memctl.lost ∧ ((part .ready).channel 0).choose = none := by decide +kernel
theorem witness_cached : (cached false).memoryRuns = true ∧ (cached false).memctl.lost = [] ∧
    (∀ l ∈ (cached false).cache.lines, l.bad = false) ∧ populated 128 128 = true ∧ (cached false).cacheable 128 = true ∧
    ((cached false).lineAt (128 / 128)).isSome = true := by decide +kernel
/-- R148: a read of a cell's DMA engine goes before one of the host, and of one source a read before a write. -/
theorem witness_order : requestBefore readReq ⟨.pcie, .p3, 0, none⟩ = true ∧ requestBefore ⟨.pcie, .p3, 0, none⟩ readReq = false ∧
    requestBefore ⟨.pcie, .p3, 0, none⟩ writeReq = true ∧ requestBefore writeReq ⟨.pcie, .p3, 0, none⟩ = false := by
  decide +kernel

/-- ChannelUpkeep. -/
theorem witness_upkeep : (queued readReq).memoryRuns = true ∧
    ((queued readReq).channel (channelOf plainAddr)).queue.findIdx? (fun x => !x.promoted) = some 0 ∧
    ((queued readReq).channel (channelOf plainAddr)).queue[0]? = some waitingRead ∧
    ((part .ready).channel 5).attempts < 4 ∧ (part .ready).serving = true ∧ (part .ready).memctl.scrub + 1 ≠
      16 * granulesPerChimney ∧
    (∀ k, k < 5 → ((part .ready).setChannel 5 { (part .ready).channel 5 with attempts := k }).memoryRuns = true) ∧
    4 ≤ (((part .ready).setChannel 5 { (part .ready).channel 5 with attempts := 4 }).channel 5).attempts := by decide +kernel

/-- An atomic on address 4,096, or on the same address of device 5. -/
def atomicOn (dev : Nat) : AtomicOps := ⟨1, 0, BitVec.ofNat 64 (dev * 2 ^ 44 + 4096), 3, 4, 0, 0, 0, 0⟩
/-- AtomicsUpdateOneOperand: the operand here, and on another device. -/
theorem witness_atomic : let r := recordOf 0x11 (naming 1) (atomicBody 1 (atomicOn 0));
    Safety.offers (holding 8 r) (issueOf 8 (naming 1)) 0x11 (fun r => spellsAtomic (atomicOn 0) 1 r = true) r calm ∧
    (holding 8 r).atomicCheck (issueOf 8 (naming 1)) (atomicOn 0) 1 = none ∧
    (holding 8 r).target (atomicOn 0).addr.toNat (atomicWidth 1) = .here 4096 ∧ 4096 / 128 ∉ (holding 8 r).memctl.lost := by
  unfold Safety.offers Safety.sound Safety.free Safety.clean
  decide +kernel
theorem witness_atomic_away : let r := recordOf 0x11 (naming 1) (atomicBody 1 (atomicOn 5));
    Safety.offers (holding 8 r) (issueOf 8 (naming 1)) 0x11 (fun r => spellsAtomic (atomicOn 5) 1 r = true) r calm ∧
    (holding 8 r).atomicCheck (issueOf 8 (naming 1)) (atomicOn 5) 1 = none ∧
    ∃ p a, (holding 8 r).target (atomicOn 5).addr.toNat (atomicWidth 1) = .away p a := by
  refine ⟨?_, by decide +kernel, _, _, rfl⟩
  unfold Safety.offers Safety.sound Safety.free Safety.clean
  decide +kernel

end Sys2Proof.Tests

namespace Sys2Proof.Tests

open Machine

/-- LSE_INIT of a record at 8,192 for three partials of four values; LSE_MERGE of one of them. -/
def lseOps (k : Nat) : AtomicOps := ⟨0, 0x1000, 8192, 0x10000, 0, 4, 3, 5, BitVec.ofNat 16 k⟩
/-- The record of LSE_INIT. -/
def lseFirst : List Byte := recordOf 0x11 (naming 1) (atomicBody 0x10 (lseOps 0))
/-- A record that awaits partial 0 of three. -/
def awaiting : LseRec := ⟨negInf, 0, 4, 3, 0, false, false, false, 0x10000, 5, 0, 0, [0, 0, 0, 0]⟩
/-- A part with that record at 8,192, and an LSE_MERGE of partial k. -/
def merging (k : Nat) : State := holding 0 (recordOf 0x11 (naming 1) (atomicBody 0x11 (lseOps k)))
  (bytesAt 8192 (awaiting.write (List.replicate 1280 0)))

/-- LseMergeFoldsInOrder: the initialization, the partial that is next, and a later one. -/
theorem witness_lse_init : Safety.offers (holding 0 lseFirst) (issueOf 0 (naming 1)) 0x11
      (fun r => spellsAtomic (lseOps 0) 0x10 r = true) lseFirst calm ∧
    (holding 0 lseFirst).lseInitCheck (issueOf 0 (naming 1)) (lseOps 0) = none ∧
    (holding 0 lseFirst).cacheableAt 8192 lseBytes = some 8192 ∧
    (holding 0 lseFirst).intact (granulesOf 8192 lseBytes) = true := by
  unfold Safety.offers Safety.sound Safety.free Safety.clean
  decide +kernel
theorem witness_lse_merge_offered (k : Fin 2) : Safety.offers (merging k) (issueOf 0 (naming 1)) 0x11
    (fun r => spellsAtomic (lseOps k) 0x11 r = true) (recordOf 0x11 (naming 1) (atomicBody 0x11 (lseOps k))) calm := by
  unfold Safety.offers Safety.sound Safety.free Safety.clean
  revert k
  decide +kernel
theorem witness_lse_record (k : Fin 2) : readLse ((merging k).memRead 8192 lseBytes) = awaiting := by
  revert k
  decide +kernel
theorem witness_lse_merge (k : Fin 2) : (merging k).lseMergeCheck (issueOf 0 (naming 1)) (lseOps k) = none ∧
    (merging k).cacheableAt 8192 lseBytes = some 8192 ∧ (merging k).intact (granulesOf 8192 lseBytes) = true ∧
    awaiting.done = false ∧ awaiting.err = false ∧ awaiting.n = (lseOps k).n.toNat ∧ (lseOps k).ordinal.toNat < awaiting.p ∧
    awaiting.p ≤ 1024 ∧ awaiting.arrived.testBit (lseOps k).ordinal.toNat = false ∧
    (merging k).cacheableAt (awaiting.slot (lseOps k).ordinal.toNat) 1152 = some (0x10000 + 1152 * k.val) ∧
    8192 + lseBytes ≤ 0x10000 + 1152 * k.val ∧ (merging k).intact (granulesOf (0x10000 + 1152 * k.val) 1152) = true ∧
    awaiting.next = 0 ∧ 0 + 1 < awaiting.p ∧ awaiting.arrived.testBit (0 + 1) = false := by
  revert k
  decide +kernel

/-- CoreAtomics: an aligned cacheable word, SC with and without its reservation, a misaligned address. -/
theorem witness_core : (part .ready).frontRuns = true ∧ (4096 : DWord).toNat % 8 = 0 ∧
    (part .ready).allCacheable 4096 8 = true ∧ 4096 / 128 ∉ (part .ready).memctl.lost ∧ CoreOp.lr ≠ .sc ∧
    (part .ready).cache.reserved.get none 2 ≠ some 4096 ∧
    (after (.coreAmo 2 .lr true 4096 0 calm) (part .ready)).cache.reserved.get none 2 = some 4096 ∧
    (after (.coreAmo 2 .lr true 4096 0 calm) (part .ready)).allCacheable 4096 8 = true ∧ (4098 : DWord).toNat % 4 ≠ 0 := by
  decide +kernel

/-- A header that names counter 9. -/
def counting : Header := ⟨false, false, 0, true, 9⟩
/-- EventCommands: NOP, ADVANCE by 2^32 and SET_EVENT of counter 7 from a kernel queue. -/
theorem witness_nop : Safety.offers (holding 0 (recordOf 0 counting [])) (issueOf 0 counting) 0x00 (fun _ => True)
      (recordOf 0 counting []) calm ∧
    (holding 0 (recordOf 0 counting [])).headerCheck 0 0x00 counting (noCells counting) false = none := by
  unfold Safety.offers Safety.sound Safety.free Safety.clean
  decide +kernel
/-- Operands of ADVANCE. -/
def plus : EventOps := ⟨7, 0x100000000⟩
theorem witness_advance : Safety.offers (holding 0 (recordOf 2 counting (eventBody plus))) (issueOf 0 counting) 0x02
      (fun r => readEvent r = plus) (recordOf 2 counting (eventBody plus)) calm ∧
    (holding 0 (recordOf 2 counting (eventBody plus))).headerCheck 0 0x02 counting (noCells counting) false = none ∧
    (holding 0 (recordOf 2 counting (eventBody plus))).counterCheck 0 plus.counter.toNat = none ∧
    between 1 plus.amount.toNat (2 ^ 32) = true := by
  unfold Safety.offers Safety.sound Safety.free Safety.clean
  decide +kernel
theorem witness_set_event : Safety.offers (holding 0 (recordOf 3 counting (eventBody plus))) (issueOf 0 counting) 0x03
      (fun r => readEvent r = plus) (recordOf 3 counting (eventBody plus)) calm ∧
    (holding 0 (recordOf 3 counting (eventBody plus))).headerCheck 0 0x03 counting (noCells counting) false = none ∧
    (holding 0 (recordOf 3 counting (eventBody plus))).counterCheck 0 plus.counter.toNat = none ∧
    plus.amount.toNat < 2 ^ 63 := by
  unfold Safety.offers Safety.sound Safety.free Safety.clean
  decide +kernel

/-- WaitsForCounters and OvenEdgeRules: a WAIT for a value, in CANCEL mode. -/
def waitFor (target : DWord) : WaitOps := ⟨7, 1, target⟩
/-- A part with that WAIT at the head of queue 0. -/
def waiting (target : DWord) : State := holding 0 (recordOf 1 (naming 0) (waitBody (waitFor target)))
theorem witness_wait (target : Fin 2) : Safety.offers (waiting (BitVec.ofNat 64 target)) (issueOf 0 (naming 0)) 0x01
      (fun r => readWait r = waitFor (BitVec.ofNat 64 target)) (recordOf 1 (naming 0) (waitBody (waitFor (BitVec.ofNat 64 target))))
      calm ∧
    (waiting (BitVec.ofNat 64 target)).headerCheck 0 0x01 (naming 0) (noCells (naming 0)) false = none ∧
    (waitFor (BitVec.ofNat 64 target)).counter.toNat < 4096 ∧ (waitFor (BitVec.ofNat 64 target)).mode.toNat ≤ 1 ∧
    (waitFor (BitVec.ofNat 64 target)).target.toNat < 2 ^ 63 ∧
    (waiting (BitVec.ofNat 64 target)).reached 7 target = decide (target = 0) ∧
    ((waiting (BitVec.ofNat 64 target)).counter 7).err = false := by
  unfold Safety.offers Safety.sound Safety.free Safety.clean
  revert target
  decide +kernel
/-- A part whose WAIT is pending, and then reached. -/
def pendingWait : State := after (.wait (issueOf 0 (naming 0)) (waitFor 1)) (waiting 1)
theorem witness_wait_completion :
    ((pendingWait.work 0).waits.find? fun w => w.place == .ring 0) = some ⟨.ring 0, naming 0, 7, 1, true⟩ ∧
    pendingWait.reached 7 1 = false ∧ (pendingWait.setEvent 7 1).frontRuns = true ∧ (pendingWait.setEvent 7 1).reached 7 1 = true ∧
    (pendingWait.errCounter 7).reached 7 1 = true ∧ ((pendingWait.errCounter 7).counter 7).err = true := by decide +kernel

end Sys2Proof.Tests

namespace Sys2Proof.Tests

open Machine

/-- A recipe of one NOP, with one parameter that nothing uses. -/
def image : List Byte := toBytes 4 7 ++ toBytes 2 1 ++ toBytes 2 0 ++ toBytes 2 0 ++ [1, 0] ++ gap 52 ++ recordOf 0 (naming 0) []
/-- That recipe, loaded. -/
def loaded : Recipe := ⟨image, 0, 1⟩
/-- A state with recipe 4 loaded. -/
def withRecipe (s : State) : State := { s with front := { s.front with recipes := [(4, some loaded)] } }

/-- WriteAndRecipes: WRITE to memory and to the host, RECIPE_LOAD, RECIPE_DROP. -/
def writeTo (dest : Byte) : WriteOps := ⟨4, dest, 4096, 0xAABBCCDD⟩
theorem witness_write (dest : Fin 2) :
    Safety.offers (holding 0 (recordOf 4 (naming 0) (writeBody (writeTo (BitVec.ofNat 8 dest))))) (issueOf 0 (naming 0)) 0x04
      (fun r => readWrite r = writeTo (BitVec.ofNat 8 dest)) (recordOf 4 (naming 0) (writeBody (writeTo (BitVec.ofNat 8 dest))))
      calm ∧
    (part .ready).headerCheck 0 0x04 (naming 0) (noCells (naming 0)) false = none ∧
    (holding 0 []).writeCheck (writeTo (BitVec.ofNat 8 dest)) = none ∧
    (holding 0 []).localOf (writeTo 0).addr.toNat = some 4096 ∧ 4096 / 128 ∉ (holding 0 []).memctl.lost ∧
    (holding 0 []).pcie.up = true ∧ (writeTo 1).addr.toNat + (writeTo 1).size.toNat ≤ 2 ^ 47 := by
  unfold Safety.offers Safety.sound Safety.free Safety.clean
  revert dest
  decide +kernel
/-- Operands of RECIPE_LOAD of the image at 8,192. -/
def loadOps : RecipeLoadOps := ⟨4, 128, 8192⟩
/-- A part with that RECIPE_LOAD at the head of queue 0. -/
def recipeLoading : State := holding 0 (recordOf 9 (naming 0) (recipeLoadBody loadOps)) (bytesAt 8192 image)
theorem witness_recipe_load : Safety.offers recipeLoading (issueOf 0 (naming 0)) 0x09 (fun r => readRecipeLoad r = loadOps)
      (recordOf 9 (naming 0) (recipeLoadBody loadOps)) calm ∧
    recipeLoading.recipeLoadCheck (issueOf 0 (naming 0)) loadOps = none ∧ recipeLoading.localOf loadOps.addr.toNat = some 8192 ∧
    recipeLoading.intact (granulesOf 8192 loadOps.length.toNat) = true ∧
    recipeOk (recipeLoading.memRead 8192 loadOps.length.toNat) = true ∧
    recipeLoading.freeSpan 4 ((loadOps.length.toNat + 4095) / 4096) = some 0 := by
  unfold Safety.offers Safety.sound Safety.free Safety.clean
  decide +kernel
/-- A part with a RECIPE_DROP of recipe 4 at the head of queue 0. -/
def dropping : State := holding 0 (recordOf 10 (naming 0) (recipeDropBody 4))
theorem witness_recipe_drop : Safety.offers dropping (issueOf 0 (naming 0)) 0x0A (fun r => rec16 r 8 = 4)
      (recordOf 10 (naming 0) (recipeDropBody 4)) calm ∧
    Safety.offers (withRecipe dropping) (issueOf 0 (naming 0)) 0x0A (fun r => rec16 r 8 = 4)
      (recordOf 10 (naming 0) (recipeDropBody 4)) calm ∧
    dropping.headerCheck 0 0x0A (naming 0) (noCells (naming 0)) false = none ∧ dropping.recipe 4 = none := by
  unfold Safety.offers Safety.sound Safety.free Safety.clean
  decide +kernel

/-- BakesBegin and OvenEdgeRules: a BAKE of recipe 4, loaded and not loaded. -/
def bakeOps : BakeOps := ⟨4, 1, 8192⟩
/-- A part with that BAKE at the head of queue 0. -/
def baking : State := holding 0 (recordOf 5 (naming 0) (bakeBody bakeOps))
theorem witness_bake : Safety.offers (withRecipe baking) (issueOf 0 (naming 0)) 0x05 (fun r => readBake r = bakeOps)
      (recordOf 5 (naming 0) (bakeBody bakeOps)) calm ∧
    (withRecipe baking).bakeCheck (issueOf 0 (naming 0)) bakeOps = none ∧
    (withRecipe baking).recipe bakeOps.recipe.toNat = some loaded ∧ (recipeHead loaded.image).params = bakeOps.count.toNat ∧
    bakeOps.params.toNat % 2 ^ 44 = 8192 ∧ baking.intact (granulesOf 8192 (8 * bakeOps.count.toNat)) = true ∧
    Safety.offers baking (issueOf 0 (naming 0)) 0x05 (fun r => readBake r = bakeOps)
      (recordOf 5 (naming 0) (bakeBody bakeOps)) calm ∧
    baking.headerCheck 0 0x05 (naming 0) (noCells (naming 0)) (baking.kernelRecipe bakeOps.recipe.toNat) = none ∧
    bakeOps.recipe.toNat < 1024 ∧ bakeOps.count.toNat ≤ 64 ∧ bakeOps.count ≠ 0 ∧
    baking.cacheFault bakeOps.params.toNat (8 * bakeOps.count.toNat) 8 = none ∧ baking.recipe bakeOps.recipe.toNat = none := by
  unfold Safety.offers Safety.sound Safety.free Safety.clean
  decide +kernel
/-- PARK with four slots from 8,192. -/
def parkOps : ParkOps := ⟨4, 1, 4, 8192⟩
/-- A part with that PARK at the head of queue 0. -/
def parking : State := withRecipe (holding 0 (recordOf 8 (naming 0) (parkBody parkOps)))
theorem witness_park : Safety.offers parking (issueOf 0 (naming 0)) 0x08 (fun r => readPark r = parkOps)
      (recordOf 8 (naming 0) (parkBody parkOps)) calm ∧ parking.parkCheck (issueOf 0 (naming 0)) parkOps = none ∧
    (parking.queue 0).enable = true ∧ (parking.work 0).bakes = [] := by
  unfold Safety.offers Safety.sound Safety.free Safety.clean
  decide +kernel
/-- A proofer on queue 9 with one wake. -/
def sleeper : Proofer := ⟨4, 1, 4, 8192, naming 0, 0⟩
/-- A part whose queue 9 is that proofer. -/
def parkedPart : State :=
  withRecipe (((part .ready).setQueue 9 { Queue.blank 9 with enable := true, state := .parked, wakes := 1 }).setWork 9
    { QueueWork.blank with proofer := some sleeper })
theorem witness_wake : (parkedPart.work 9).proofer = some sleeper ∧ parkedPart.frontRuns = true ∧ parkedPart.turn = some 9 ∧
    parkedPart.wakeReady 9 = true ∧ parkedPart.recipe sleeper.recipe = some loaded ∧
    (recipeHead loaded.image).params = sleeper.count ∧
    parkedPart.intact (granulesOf ((sleeper.params + 512 * (sleeper.baked % sleeper.slots)) % 2 ^ 44) (8 * sleeper.count)) = true ∧
    parkedPart.parked 9 = true := by decide +kernel

/-- OvenEdgeRules: RING of a parked queue and of one that is not. -/
def ringOps (target : Byte) : RingOps := ⟨target, 65535⟩
/-- The part with queue 9 parked, and a RING at the head of queue 0. -/
def ringing (target : Byte) : State :=
  { parkedPart.setQueue 0 (oneRecord 0) with mem := bytesAt 0 (recordOf 7 (naming 0) (ringBody (ringOps target))) }
theorem witness_ring (target : Byte) (h : target ∈ ([9, 10] : List Byte)) :
    Safety.offers (ringing target) (issueOf 0 (naming 0)) 0x07 (fun r => readRing r = ringOps target)
      (recordOf 7 (naming 0) (ringBody (ringOps target))) calm ∧
    (ringing target).headerCheck 0 0x07 (naming 0) (noCells (naming 0)) (isKernel target.toNat) = none ∧
    (ringOps target).target.toNat < 64 ∧ 1 ≤ (ringOps target).wakes.toNat ∧
    (ringing target).parked target.toNat = decide (target = 9) := by
  unfold Safety.offers Safety.sound Safety.free Safety.clean
  revert target
  decide +kernel

/-- EnqueueAndQueueControl: ENQUEUE of one record from 8,192 into queue 9, with and without PUBLISH. -/
def enqueueOps (flags : Byte) : EnqueueOps := ⟨9, flags, 1, 8192⟩
/-- A part whose queue 9 takes records by ENQUEUE. -/
def enqueuing (flags : Byte) : State :=
  (holding 0 (recordOf 6 (naming 0) (enqueueBody (enqueueOps flags)))).setQueue 9
    { Queue.blank 9 with enable := true, producerEnqueue := true, state := .idle, ringBase := 0x10000 }
theorem witness_enqueue (flags : Byte) (h : flags ∈ ([0, 1] : List Byte)) :
    Safety.offers (enqueuing flags) (issueOf 0 (naming 0)) 0x06 (fun r => readEnqueue r = enqueueOps flags)
      (recordOf 6 (naming 0) (enqueueBody (enqueueOps flags))) calm ∧
    (enqueuing flags).enqueueCheck (issueOf 0 (naming 0)) (enqueueOps flags) = none ∧
    (enqueuing flags).localOf (enqueueOps flags).source.toNat = some 8192 ∧
    (enqueuing flags).intact (granulesOf 8192 (64 * (enqueueOps flags).count.toNat)) = true := by
  unfold Safety.offers Safety.sound Safety.free Safety.clean
  revert flags
  decide +kernel

/-- QUEUE_CTL on a queue: lanes 0 to 9, or counters 0 to 9 for an empty range. -/
def controlOps (target : Byte) : ControlOps := ⟨target, 0xF00, 10⟩
/-- Its windows. -/
def laneOps : ControlOps := ⟨9, 246, 10⟩
/-- A part with a QUEUE_CTL at the head of queue 0. -/
def controlling (action : Byte) (o : ControlOps) : State := holding 0 (recordOf 11 (naming 0) (controlBody action o))
/-- The operands of an action. -/
def actionOps (action : Byte) : ControlOps := if action = 1 then laneOps else controlOps 9
theorem witness_control (action : Byte) (h : action ∈ ([1, 2, 3, 4, 5, 6] : List Byte)) :
    Safety.offers (controlling action (actionOps action)) (issueOf 0 (naming 0)) 0x0B
      (fun r => readControl r = actionOps action ∧ recNat r 9 1 = action.toNat)
      (recordOf 11 (naming 0) (controlBody action (actionOps action))) calm ∧
    (controlling action (actionOps action)).controlCheck (issueOf 0 (naming 0)) (actionOps action) action.toNat = none ∧
    (actionOps action).target.toNat ≠ (0 : QueueId).val ∧
    ((controlling action (actionOps action)).queue 9).state ≠ .resetting ∧
    ((controlling action (actionOps action)).queue 9).state ≠ .faulted := by
  unfold Safety.offers Safety.sound Safety.free Safety.clean
  revert action
  decide +kernel
theorem witness_control_targets :
    (((controlling 4 (controlOps 9)).setQueue 9 { Queue.blank 9 with state := .faulted }).queue 9).state = .faulted ∧
    parkedPart.parked 9 = true ∧ (parkedPart.work 9).proofer.isSome = true := by decide +kernel

/-- QueueResetEdgeRules: a queue that is being reset, one that is FAULTED, and the issuing queue. -/
theorem witness_reset_again (st : QState) (h : st ∈ [QState.resetting, .faulted]) :
    let s := (controlling 5 (controlOps 9)).setQueue 9 { Queue.blank 9 with state := st };
    Safety.offers s (issueOf 0 (naming 0)) 0x0B (fun r => readControl r = controlOps 9 ∧ recNat r 9 1 = 5)
      (recordOf 11 (naming 0) (controlBody 5 (controlOps 9))) calm ∧
    s.controlCheck (issueOf 0 (naming 0)) (controlOps 9) 5 = none ∧ (s.queue 9).state = st := by
  unfold Safety.offers Safety.sound Safety.free Safety.clean
  simp only [List.mem_cons, List.not_mem_nil, or_false] at h
  rcases h with rfl | rfl <;> decide +kernel
theorem witness_own_queue (action : Byte) (h : action ∈ ([3, 5] : List Byte)) :
    Safety.offers (controlling action (controlOps 0)) (issueOf 0 (naming 0)) 0x0B
      (fun r => readControl r = controlOps 0 ∧ recNat r 9 1 = action.toNat)
      (recordOf 11 (naming 0) (controlBody action (controlOps 0))) calm ∧
    (controlOps 0).target.toNat = (0 : QueueId).val ∧
    (controlling action (controlOps 0)).headerCheck 0 0x0B (naming 0) (noCells (naming 0)) false = none := by
  unfold Safety.offers Safety.sound Safety.free Safety.clean
  revert action
  decide +kernel

/-- FailedChecksFaultTheQueue: a NOP that names a cell. -/
theorem witness_bad_mask : Safety.offers (holding 0 (recordOf 0 (naming 1) [])) (issueOf 0 (naming 1)) 0x00 (fun _ => True)
      (recordOf 0 (naming 1) []) calm ∧
    (holding 0 (recordOf 0 (naming 1) [])).headerCheck 0 0x00 (naming 1) (noCells (naming 1)) false = some (operandFault 2) := by
  unfold Safety.offers Safety.sound Safety.free Safety.clean
  decide +kernel

end Sys2Proof.Tests

namespace Sys2Proof.Tests

open Machine

/-! ### Witnesses: the cells -/

/-- Two vectors of 16 elements, apart from one another. -/
def sieveOps : SieveOps := ⟨0, 0, 0, 16, 2, 0, 0x1000, 0x2000, 0x3000, 128, 0, 2, 0⟩
/-- A part with a SIEVE sub-operation at the head of queue 0. -/
def sieving (code : Byte) : State := holding 0 (recordOf 0x22 (naming 1) (sieveBody code sieveOps))
/-- The sub-operations of SieveElementwise. -/
def elementCodes : List Nat := [1, 2, 3, 4, 5, 6, 7, 8, 9, 10, 11, 12, 13, 14, 15, 0x13]
theorem witness_sieve_offered (code : Byte) (h : code ∈ ([1, 2, 3, 4, 5, 6, 7, 8, 9, 10, 11, 12, 13, 14, 15, 0x10, 0x11, 0x12, 0x13, 0x15, 0x16, 0x17] : List Byte)) :
    Safety.offers (sieving code) (issueOf 0 (naming 1)) 0x22 (fun r => readSieve r = sieveOps ∧ recNat r 8 1 = code.toNat)
      (recordOf 0x22 (naming 1) (sieveBody code sieveOps)) calm := by
  unfold Safety.offers Safety.sound Safety.free Safety.clean
  revert code
  decide +kernel
theorem witness_sieve_elementwise : ∀ e ∈ elementCodes,
    (sieving (byte e)).sieveCheck (issueOf 0 (naming 1)) sieveOps (elementSpans sieveOps e) = none ∧
    cellsOf (naming 1).mask = [0] := by decide +kernel
/-- The spans of SieveReductions, and of STAT_UPDATE. -/
def reductionSpans : List SieveSpans :=
  [⟨0x10, 64, 0, 0, 4, 16, false, true⟩, ⟨0x11, 64, 0, 0, 4, 16, false, true⟩, ⟨0x12, 64, 0, 0, 4, 16, false, true⟩,
    ⟨0x16, 64, 0, 0, 16, 16, false, false⟩, ⟨0x15, 64, 0, 0, 32, 16, false, false⟩]
theorem witness_sieve_reduction : ∀ p ∈ reductionSpans, (sieving (byte p.code)).sieveCheck (issueOf 0 (naming 1)) sieveOps p = none := by
  decide +kernel
theorem witness_sieve_apart : ∀ p ∈ reductionSpans, Safety.apart sieveOps p := by
  unfold Safety.apart Safety.resultStep
  decide +kernel
/-- PHILOX of one counter. -/
theorem witness_philox : (sieving 0x17).sieveCheck (issueOf 0 (naming 1)) { sieveOps with n := 1, vectors := 1 }
    ⟨0x17, 16, 8, 0, 16, 4, false, false⟩ = none := by decide +kernel

/-- ROPE of one vector of one head of 128, all rotated. -/
def ropeOps : RopeOps := ⟨0, 0, 1, 128, 128, 0, 1, 0x10000, 0x1000, 0, 512, 0x2000, 256⟩
/-- STAT of rows 4 and 5. -/
def statOps : StatOps := ⟨4, 2, 0x1000⟩
theorem witness_rope : Safety.offers (holding 0 (recordOf 0x23 (naming 1) (ropeBody ropeOps))) (issueOf 0 (naming 1)) 0x23
      (fun r => readRope r = ropeOps) (recordOf 0x23 (naming 1) (ropeBody ropeOps)) calm ∧
    (holding 0 (recordOf 0x23 (naming 1) (ropeBody ropeOps))).ropeCheck (issueOf 0 (naming 1)) ropeOps = none ∧
    (∀ v, v < ropeOps.vectors.toNat → (holding 0 []).bufNat 0 (ropeOps.positions.toNat + 4 * v) 4 ≤ 65535) ∧
    ropeOps.vectors.toNat = 1 := by
  unfold Safety.offers Safety.sound Safety.free Safety.clean
  decide +kernel
theorem witness_stat (action : Byte) (h : action ∈ ([0, 1, 2] : List Byte)) :
    Safety.offers (holding 0 (recordOf 0x24 (naming 1) (statBody action statOps))) (issueOf 0 (naming 1)) 0x24
      (fun r => readStat r = statOps ∧ recNat r 8 1 = action.toNat) (recordOf 0x24 (naming 1) (statBody action statOps)) calm ∧
    (holding 0 (recordOf 0x24 (naming 1) (statBody action statOps))).statCheck (issueOf 0 (naming 1)) statOps
      (action.toNat != 0) = none := by
  unfold Safety.offers Safety.sound Safety.free Safety.clean
  revert action
  decide +kernel

/-- KNEAD of one lane of BF16, without a variant, and with one whose window holds no stream. -/
def kneadOps (variant : Byte) : KneadOps := ⟨0, 0, variant, 0, 0, 1, 512, 0x10000, 0x1000, 0, 2048, 0, 0⟩
/-- A part with that KNEAD at the head of queue 0. -/
def kneading (variant : Byte) : State := holding 0 (recordOf 0x20 (naming 1) (kneadBody (kneadOps variant)))
theorem witness_knead (variant : Byte) (h : variant ∈ ([0, 1] : List Byte)) :
    Safety.offers (kneading variant) (issueOf 0 (naming 1)) 0x20 (fun r => readKnead r = kneadOps variant)
      (recordOf 0x20 (naming 1) (kneadBody (kneadOps variant))) calm ∧
    (kneading variant).kneadCheck (issueOf 0 (naming 1)) (kneadOps variant) = none ∧
    wfmtOf (kneadOps variant).format = some .bf16 := by
  unfold Safety.offers Safety.sound Safety.free Safety.clean
  revert variant
  decide +kernel
theorem witness_pass : ∃ code, (kneading 0).passCodes 0 .bf16 (kneadOps 0) = .ok code := ⟨_, rfl⟩
theorem witness_bad_tile : ∃ e, (kneading 1).passCodes 0 .bf16 (kneadOps 1) = .error e ∧ e.cause ≠ .beyond :=
  ⟨_, rfl, by decide⟩
/-- Its window is the last of the buffer, and its first block, stored raw, would lie behind it. -/
def edgeOps : KneadOps := { kneadOps 1 with window := 0x5FFF00 }
/-- A part with that KNEAD at the head of queue 0, and that window. -/
def atEdge : State :=
  let s := holding 0 (recordOf 0x20 (naming 1) (kneadBody edgeOps))
  { s with cells := { s.cells with buf := [(0x5FFF05, 1), (0x5FFF40, 1)] } }
theorem witness_edge_offered : Safety.offers atEdge (issueOf 0 (naming 1)) 0x20 (fun r => readKnead r = edgeOps)
      (recordOf 0x20 (naming 1) (kneadBody edgeOps)) calm ∧ atEdge.kneadCheck (issueOf 0 (naming 1)) edgeOps = none := by
  unfold Safety.offers Safety.sound Safety.free Safety.clean
  decide +kernel
theorem witness_edge_beyond : ∃ e, atEdge.passCodes 0 .bf16 edgeOps = .error e ∧ e.cause = .beyond := ⟨_, rfl, by decide⟩
/-- DRAIN of one lane as FP32. -/
def drainOps : DrainOps := ⟨0, 255, 1, 512, 0x1000, 2048⟩
theorem witness_drain_command : Safety.offers (holding 0 (recordOf 0x21 (naming 1) (drainBody drainOps))) (issueOf 0 (naming 1))
      0x21 (fun r => readDrain r = drainOps) (recordOf 0x21 (naming 1) (drainBody drainOps)) calm ∧
    (holding 0 (recordOf 0x21 (naming 1) (drainBody drainOps))).drainCheck (issueOf 0 (naming 1)) drainOps = none ∧
    outFmtOf drainOps.format.toNat = some .f32 := by
  unfold Safety.offers Safety.sound Safety.free Safety.clean
  decide +kernel

/-- DMA_COPY of 64 bytes between kinds of ends. -/
def dmaOps (source dest : Byte) : DmaOps := ⟨source, dest, 1, 64, 0x2000, 0x4000, 0, 0, 3⟩
/-- A part with that DMA_COPY at the head of queue 0. -/
def copying (source dest : Byte) : State := holding 0 (recordOf 0x10 (naming 1) (dmaBody (dmaOps source dest)))
/-- The host's answer to a read of 64 bytes. -/
def hostData : Hw := { calm with host := [.data (List.replicate 64 7)] }
theorem witness_dma : ∀ k ∈ ([(0, 1), (1, 0), (1, 1), (1, 2), (1, 3), (0, 3), (2, 0)] : List (Byte × Byte)),
    Safety.offers (copying k.1 k.2) ⟨0, .ring 0, naming 1, hostData⟩ 0x10 (fun r => readDma r = dmaOps k.1 k.2)
      (recordOf 0x10 (naming 1) (dmaBody (dmaOps k.1 k.2))) hostData ∧
    (copying k.1 k.2).dmaCheck (issueOf 0 (naming 1)) (dmaOps k.1 k.2) = none ∧
    (copying k.1 k.2).target 0x2000 64 = .here 0x2000 ∧ (copying k.1 k.2).target 0x4000 64 = .here 0x4000 ∧
    (copying k.1 k.2).pcie.up = true ∧ cellIds (naming 1).mask = [0] := by
  unfold Safety.offers Safety.sound Safety.free Safety.clean
  intro k hk
  simp only [List.mem_cons, List.not_mem_nil, or_false] at hk
  rcases hk with rfl | rfl | rfl | rfl | rfl | rfl | rfl <;> decide +kernel

end Sys2Proof.Tests

namespace Sys2Proof.Tests

open Machine

/-- A pool of one layer, one KV head and one query head of 128 dimensions, in cell 0, with one frame (R278). -/
def onePool : List Byte :=
  toBytes 2 64 ++ toBytes 2 1 ++ [1, 1] ++ toBytes 2 128 ++ toBytes 2 1 ++ gap 2 ++ toBytes 4 1 ++ toBytes 8 0x100000 ++
    toBytes 8 0x10000 ++ toBytes 8 0x8000 ++ toBytes 4 1 ++ gap 20
/-- A page list of capacity 1: its length, its reserved page, and its one entry (R285). -/
def listBytes (len reserved entry : Nat) : List Byte :=
  toBytes 4 len ++ toBytes 2 1 ++ [0, 0] ++ toBytes 4 reserved ++ toBytes 2 1 ++ gap 2 ++ gap 8 ++ toBytes 8 0x6000 ++
    toBytes 8 0x7000 ++ gap 24 ++ toBytes 4 entry
/-- Operands of KV_APPEND of the first row. -/
def appendOps : AppendOps := ⟨0, 0, 0, 1, 0, 0x4000⟩
/-- A part with pool 0, a page list at 0x4000 that has a reserved page, and that KV_APPEND. -/
def appending : State :=
  (holding 0 (recordOf 0x30 (naming 1) (appendBody appendOps)) (bytesAt 0x4000 (listBytes 0 0 noPage))).setLed 0x5000 0x10 0
    (ofBytes onePool)
theorem witness_append_offered : Safety.offers appending (issueOf 0 (naming 1)) 0x30 (fun r => readAppend r = appendOps)
      (recordOf 0x30 (naming 1) (appendBody appendOps)) calm ∧
    appending.appendCheck (issueOf 0 (naming 1)) appendOps = none ∧ cellsOf (naming 1).mask = [0] := by
  unfold Safety.offers Safety.sound Safety.free Safety.clean
  decide +kernel
theorem witness_append : ∀ d ∈ appending.pool 0, ∀ h, h = listHead (appending.memRead 0x4000 64) →
    d = poolOf (ofBytes onePool) ∧ appending.memctl.lost = [] ∧ appending.cacheableAt appendOps.list.toNat 64 = some 0x4000 ∧
    h.pool = 0 ∧ h.seq ≤ 4095 ∧ bit d.mask h.home = true ∧ h.cap = 1 ∧ h.cap ≤ 65536 / d.size ∧
    appending.allCacheable 0x4000 (64 + 4 * h.cap) = true ∧ 0 ≤ h.len ∧ (0 + 1 - 1) / d.size = 0 ∧
    appending.memNat (0x4000 + 64 + 4 * 0) 4 = noPage ∧ h.reserved = 0 ∧ h.reserved ≠ noPage ∧
    appending.pageNamed d 0 = true ∧ appending.ownPage 0 = true ∧ pageCell 0 = 0 ∧
    appending.memNat (0 * 2 ^ 33 + d.table + 4 * pageIndex 0) 4 = 0 ∧ 0 < d.frames ∧ d.slotAddress 0 0 0 0 = 0x100000 ∧
    0x4000 + (64 + 4 * h.cap) ≤ 0x100000 ∧ 0x4000 + (64 + 4 * h.cap) ≤ 0 * 2 ^ 33 + d.table + 4 * pageIndex 0 := by
  intro d hd h hh
  subst hh
  have : d = poolOf (ofBytes onePool) := by
    have e : appending.pool 0 = some (poolOf (ofBytes onePool)) := by decide +kernel
    rw [e] at hd
    exact (Option.mem_some_iff.mp hd).symm
  subst this
  decide +kernel

/-- Operands of KV_ATTEND of one query whose table entry lies at 0x5000. -/
def attendOps : AttendOps := ⟨0, 0, 1, 5, 0x5000, 0x3F800000, 0x1000, 256, 0x2000, 256⟩
/-- A part with pool 0, a page list of one row, a record at 0xA000 with its spill at 0xC000, and that KV_ATTEND. -/
def attending : State :=
  (holding 0 (recordOf 0x31 (naming 1) (attendBody attendOps)) (bytesAt 0x4000 (listBytes 1 noPage 0) ++
    bytesAt 0x5000 (toBytes 8 0x4000) ++ bytesAt 0x7000 (toBytes 8 0xA000 ++ toBytes 8 0xC000))).setLed 0x5000 0x10 0
    (ofBytes onePool)
/-- Its query. -/
def oneQuery : Query := ⟨0, 0x4000, 0, 0, 0, 0x4000, listHead (listBytes 1 noPage 0), [(0xA000, 0xC000)]⟩
theorem witness_attend_offered : Safety.offers attending (issueOf 0 (naming 1)) 0x31 (fun r => readAttend r = attendOps)
      (recordOf 0x31 (naming 1) (attendBody attendOps)) calm ∧
    attending.attendCheck (issueOf 0 (naming 1)) attendOps = none ∧ attending.pool 0 = some (poolOf (ofBytes onePool)) ∧
    (poolOf (ofBytes onePool)).dim ≤ 256 ∧ attending.cacheableAt attendOps.table.toNat 16 = some 0x5000 ∧
    attending.ownPage 0 = true := by
  unfold Safety.offers Safety.sound Safety.free Safety.clean
  decide +kernel
theorem witness_attend : ∀ d, d = poolOf (ofBytes onePool) →
    ∀ plans, plans = (State.plan calm attendOps d (cellsOf (naming 1).mask) (attending, true)).2 →
    (plans.flatMap CellPlan.faults).length = 0 ∧ launchQueries plans = [oneQuery] ∧ oneQuery.pages d = [0] ∧
    plans.flatMap (fun p => p.kept.map fun k => (p.cell, k.entry, k.page, k.frame)) = [(0, 0, 0, 0)] ∧ d.queryHeads = 1 ∧
    oneQuery.record 0 = (0xA000, 0xC000) ∧ (attending.cacheableAt 0xC000 1152).isSome = true ∧
    0xA000 + lseBytes ≤ d.slotAddress 0 0 0 (oneQuery.slots d 0).1 := by
  intro d hd plans hp
  subst hd
  subst hp
  decide +kernel

/-- Operands of BUILD_TABLES of one tile of BF16, cleared and finished, and of PACK_DELTAS of it. -/
def deltaOps : DeltaOps := ⟨0, 1, 3, 0, 1, 5, 6, 0x100000, 0x140000, 0x6000, 0x8000⟩
/-- The descriptor that a build of empty counts leaves (R245). -/
def emptyStream : List Byte :=
  descriptorBytes .bf16 5 1 6 1 (buildTable (List.replicate 64 0)) (buildTable (List.replicate 64 0))
/-- A part with a delta command at the head of queue 0 and that descriptor. -/
def packing (opcode : Byte) : State := holding 0 (recordOf opcode (naming 1) (deltaBody deltaOps)) (bytesAt 0x8000 emptyStream)
theorem witness_build : Safety.offers (packing 0x38) (issueOf 0 (naming 1)) 0x38 (fun r => readDelta r = deltaOps)
      (recordOf 0x38 (naming 1) (deltaBody deltaOps)) calm ∧
    (packing 0x38).buildCheck (issueOf 0 (naming 1)) deltaOps = none ∧ (packing 0x38).memctl.lost = [] ∧
    wfmtOf deltaOps.format = some .bf16 ∧ DeltaOps.finish deltaOps = true := by
  unfold Safety.offers Safety.sound Safety.free Safety.clean
  decide +kernel
theorem witness_pack : ∀ d, d = streamHead ((packing 0x39).memRead 0x8000 64) →
    Safety.offers (packing 0x39) (issueOf 0 (naming 1)) 0x39 (fun r => readDelta r = deltaOps)
      (recordOf 0x39 (naming 1) (deltaBody deltaOps)) calm ∧
    (packing 0x39).packCheck (issueOf 0 (naming 1)) deltaOps = none ∧ wfmtOf d.format = some .bf16 ∧
    d.blocks = d.tiles * WFmt.bf16.blocks ∧ deltaOps.firstTile.toNat = d.packed ∧
    d.packed + deltaOps.tiles.toNat ≤ d.tiles ∧ (packing 0x39).extentFault 0 (packExtents deltaOps .bf16 d) = none := by
  intro d hd
  subst hd
  unfold Safety.offers Safety.sound Safety.free Safety.clean
  decide +kernel

end Sys2Proof.Tests

namespace Sys2Proof.Tests

open Machine

/-! ### Witnesses: the Reed arrays, queues as registers, the ends of commands -/

/-- REED_RUN of two vectors of one group of cell 0. -/
def runOps : ReedRunOps := ⟨0, 1, 0, 0, 2, 0, 0, 0x1000, 128, 0⟩
/-- A part whose group 0 of cell 0 is VALID, with a command record at the head of queue 0. -/
def reedPart (record : List Byte) : State := (holding 0 record).setLed 0x6800 0x10 0 1
/-- The record of REED_RUN. -/
def runRecord : List Byte := recordOf 0x40 (naming 1) (reedRunBody runOps)
/-- A part whose array of cell 0 has operations before that command, its latest test check passed. -/
def behind (l : List ReedOp) : State :=
  { reedPart runRecord with reed := { (reedPart runRecord).reed with
      ops := [(0, l)], health := [(0, { ReedHealth.blank with passed := true })] } }
/-- A run that has begun and has added v vectors. -/
def begunRun (v : Nat) : ReedOp := .run 3 (.ring 7) runOps true v false
/-- A part where a test check of the array of cell 0 is due. -/
def checkDue : State :=
  { reedPart runRecord with reed := { (reedPart runRecord).reed with health := [(0, { ReedHealth.blank with testDue := true })] } }

theorem witness_reed_run : ∀ s ∈ [reedPart runRecord, behind [begunRun 0], checkDue],
    Safety.offers s (issueOf 0 (naming 1)) 0x40 (fun r => readReedRun r = runOps) runRecord calm ∧
    s.runCheck (issueOf 0 (naming 1)) runOps = none ∧ s.frameReached runOps.frame.toNat = true ∧
    (∀ g, g < 1 → s.led 0x6800 0x10 (16 * 0 + g) = 1) := by
  unfold Safety.offers Safety.sound Safety.free Safety.clean
  decide +kernel
theorem witness_reed_order : ((reedPart runRecord).health 0).recalDue = false ∧ ((reedPart runRecord).health 0).testDue = false ∧
    (reedPart runRecord).reedOps 0 = [] ∧ (behind [begunRun 0]).reedOps 0 = [begunRun 0] ∧ (checkDue.health 0).testDue = true ∧
    checkDue.programming 0 = false := by decide +kernel
/-- REED_READOUT of one slot, cleared. -/
def readoutOps : ReadoutOps := ⟨0, 1, 256, 0, 1, 0x2000, 0x3F800000, 0x3000, 1024⟩
theorem witness_readout : Safety.offers (reedPart (recordOf 0x41 (naming 1) (readoutBody readoutOps))) (issueOf 0 (naming 1)) 0x41
      (fun r => readReadout r = readoutOps) (recordOf 0x41 (naming 1) (readoutBody readoutOps)) calm ∧
    (reedPart (recordOf 0x41 (naming 1) (readoutBody readoutOps))).readoutCheck (issueOf 0 (naming 1)) readoutOps = none ∧
    readoutOps.slots.toNat = 1 := by
  unfold Safety.offers Safety.sound Safety.free Safety.clean
  decide +kernel
/-- REED_PROGRAM of group 1 of cell 0. -/
def programOps : ReedProgramOps := ⟨1, 0x4000, 0x8000, 77⟩
/-- A part with VPRG in its window, a source whose first weight is +1, and that REED_PROGRAM. -/
def programmingPart : State :=
  let s := reedPart (recordOf 0x42 (naming 1) (reedProgramBody programOps))
  { s with
    power := { s.power with inWindow := { s.power.inWindow with vprg := true } }
    cells := { s.cells with buf := [(0x4000, 1)] } }
theorem witness_program : Safety.offers programmingPart (issueOf 0 (naming 1)) 0x42
      (fun r => readReedProgram r = programOps) (recordOf 0x42 (naming 1) (reedProgramBody programOps)) calm ∧
    programmingPart.programCheck (issueOf 0 (naming 1)) programOps = none ∧ programmingPart.reedOps 0 = [] ∧
    programmingPart.led 0x6800 0x12 (16 * 0 + 1) + 34 ≤ 100000 ∧ programmingPart.power.inWindow.vprg = true ∧
    programmingPart.persists = true := by
  unfold Safety.offers Safety.sound Safety.free Safety.clean
  decide +kernel
theorem small_weights_allowed (source : List Byte) (h : ∀ j, (source.getD j 0).toNat < 2) : targetOutside 1 source = false := by
  have z (i n : Nat) : sourceCode source i n < 2 := by
    rw [sourceCode, bits]
    exact Nat.lt_of_le_of_lt (Nat.mod_le _ _) (Nat.lt_of_le_of_lt (Nat.div_le_self _ _) (h (128 * i + n / 2)))
  have rows : ∀ i ∈ countFrom 0 64, i < 64 := by decide +kernel
  rw [targetOutside, List.any_eq_false]
  intro i hi
  have hi := rows i hi
  rw [Bool.not_eq_true, List.any_eq_false]
  intro n _
  have := z i n
  have : programRows 1 = 64 := rfl
  simp only [Bool.not_eq_true, Bool.or_eq_false_iff, Bool.and_eq_false_iff, decide_eq_false_iff_not]
  omega
theorem witness_program_target : targetOutside 1 (programmingPart.programSource 0 programOps) = false := by
  apply small_weights_allowed
  intro j
  rw [List.getD_eq_getElem?_getD]
  cases h : (programmingPart.programSource 0 programOps)[j]? with
  | none => decide
  | some x =>
    obtain ⟨hj, e⟩ := List.getElem?_eq_some_iff.mp h
    have g := Sparse.getElem_read 0 programmingPart.cells.buf (0 * 2 ^ 23 + 0x4000) 8192 j hj
    have e : x = programmingPart.cells.buf.get 0 (0 * 2 ^ 23 + 0x4000 + j) := e.symm.trans g
    have b : programmingPart.cells.buf = [(0x4000, 1)] := rfl
    rw [e, b, Sparse.get]
    split
    · decide
    · exact (by decide : (0 : Byte).toNat < 2)
theorem witness_program_begins : (programmingPart.beginPulses 0 1 (programmingPart.programSource 0 programOps)).ended = none := by
  decide +kernel

/-- A row of weight zero whose cells conduct nothing needs no pulse. -/
theorem row_quiet (s : State) (c g : Nat) (w : ProgramRun) (h : s.reed.cond = []) (hw : w.source = []) :
    s.outside c g w = [] ∧ s.pulsed c g w = [] := by
  have t (i n : Nat) (side : Bool) : targetLevel [] i n side = 0 := by simp [targetLevel, sourceCode, codeWeight, bits]
  have r (x : Nat × Bool) : s.reads c g w x = 0 := by simp [State.reads, State.conductance, h, Sparse.get]
  have o : s.outside c g w = [] := by simp [State.outside, hw, t, r, inLevel, levelWindow, between]
  have l : s.lowCells c g w = [] := by simp [State.lowCells, hw, t, r]
  refine ⟨o, ?_⟩
  unfold State.pulsed
  split
  · exact o
  · split
    · exact l
    · rfl
/-- Group 1 of an array whose cells conduct nothing, for weights of zero: done without a pulse. -/
def idleProgram : ProgramRun := ⟨[], 63, 1, 0, 0, 0, some ⟨0, 127, 0, 0⟩⟩
theorem seek_quiet (s : State) (c : Nat) (h : s.reed.cond = []) (n r : Nat) (hr : r < 64) (hn : 64 ≤ r + n) :
    s.seek c 1 n ⟨[], r, 1, 0, 0, 0, none⟩ = idleProgram := by
  induction n generalizing r with
  | zero => omega
  | succ n ih =>
    have q := row_quiet s c 1 ⟨[], r, 1, 0, 0, 0, none⟩ h rfl
    rw [State.seek]
    simp only [q.1, q.2, ne_eq, not_true, if_false, if_true]
    split
    · exact ih (r + 1) (by assumption) (by omega)
    · have : r = 63 := by
        have : programRows 1 = 64 := rfl
        omega
      subst this
      rfl
theorem idle_program (s : State) (c : Nat) (h : s.reed.cond = []) : s.beginPulses c 1 [] = idleProgram :=
  seek_quiet s c h 130 0 (by omega) (by omega)
/-- A part whose array of cell 0 has programmed for a command in flight on queue 3. -/
def pulsing : State := (behind [.program 3 (.ring 7) programOps (some idleProgram)]).setWork 3
  { QueueWork.blank with inFlight := [⟨.ring 7, 0x42, naming 1, 1, [], none, [], [], [], [], []⟩] }
theorem witness_program_end : pulsing.completes 3 = true ∧ pulsing.persists = true ∧ pulsing.front.subs = [] ∧
    pulsing.programOf 3 (.ring 7) = some (0, programOps, idleProgram) ∧
    pulsing.reedOps 0 = [.program 3 (.ring 7) programOps (some idleProgram)] ∧
    (pulsing.flight 3 (.ring 7)).map (fun f => (f.attend, f.onEnd)) = some (none, []) ∧ programOps.group.toNat ≤ 15 ∧
    (State.iterations 3 0 1 [] (pulsing, idleProgram)).2.ended = some ⟨statusOk, 127, 0, 0⟩ := by decide +kernel
theorem witness_program_idle : idleProgram = pulsing.beginPulses 0 programOps.group.toNat idleProgram.source ∧
    targetOutside programOps.group.toNat idleProgram.source = false := by
  refine ⟨(idle_program pulsing 0 rfl).symm, ?_⟩
  rw [targetOutside, List.any_eq_false]
  intro i _
  rw [Bool.not_eq_true, List.any_eq_false]
  intro n _
  simp [idleProgram, sourceCode, bits]
/-- R377, R378: of the drivers of a row the P cells pulse first, a SET step k has a current of 100 + 10·(k − 1) µA. -/
theorem test_pulse : phasePulse 0 = ⟨400, 50, 2⟩ ∧ phasePulse 16 = ⟨250, 200, 100⟩ ∧ rowCells.head? = some (0, false) ∧
    rowCells[256]? = some (0, true) := by decide +kernel
/-- The RESET of a row brings the one cell that is wanted at L1 to 0, and the first SET step to 8,000 nS: then the row verifies. -/
theorem test_row : let w : ProgramRun := ⟨[1], 0, 1, 0, 0, 0, none⟩
    let r := (reedPart []).iterate 0 1 w ⟨[(0, false, 0)], none⟩
    let p := r.1.pulses 0 1 r.2
    let u := r.1.applyPulses 0 64 [(0, false, 8000)]
    (r.2.phase, r.2.count, p) = (1, 1, [(0, false, ⟨100, 200, 100⟩)]) ∧ u.outside 0 1 r.2 = [] ∧ u.weight 0 64 0 = 1 := by
  decide +kernel

/-- ReedArraysConvertAndCheck. -/
theorem witness_contribution : (behind [begunRun 0]).frontRuns = true ∧ ((behind [begunRun 0]).health 0).recalDue = false ∧
    ((behind [begunRun 0]).health 0).testDue = false ∧
    1 ≤ runOps.groups.toNat ∧ runOps.groups.toNat ≤ 16 ∧ 0 + 1 < runOps.vectors.toNat ∧
    (behind [begunRun 1]).reedOps 0 = begunRun 1 :: [] ∧
    ((behind [begunRun 0]).health 0).passed = true := by decide +kernel
theorem witness_contribution_sums (m : Nat) : ∀ w ∈ [0, 1],
    ((behind [begunRun 0]).groupSum 0 runOps w 0 m).natAbs * 1015 ≤ 254 * 192 * 1000 := by
  have h0 : (behind [begunRun 0]).groupSum 0 runOps 0 0 m = 0 := rfl
  have h1 : (behind [begunRun 0]).groupSum 0 runOps 1 0 m = 0 := rfl
  intro w hw
  simp only [List.mem_cons, List.not_mem_nil, or_false] at hw
  rcases hw with rfl | rfl
  · rw [h0]; decide
  · rw [h1]; decide
theorem witness_run_begin : let s := behind [.run 3 (.ring 7) runOps false 0 false];
    s.frontRuns = true ∧ (s.health 0).recalDue = false ∧ (s.health 0).testDue = false ∧
    s.reedOps 0 = .run 3 (.ring 7) runOps false 0 false :: [] ∧ s.frameReached 0 = true ∧ s.led 0x6800 0x10 0 = 1 := by
  decide +kernel
/-- The expected counts (R384, its table). -/
theorem test_counts : testCount 0 = 170 ∧ testCount 1 = -170 ∧ testCount 2 = 0 ∧ testCount 3 = 64 := by decide +kernel
/-- Intervals of a test check that meet the nominal counts. -/
def nominal (k : Nat) : List (List Int) :=
  [170, -170, 0, 64].map fun (n : Int) => List.replicate k (4096 * n)
theorem trims_reset (n : Nat) : (part .ready).trim 0 n = 512 := rfl
theorem interval_counted (trim : Nat → Nat) (n k : Nat) (x : Int) (ht : trim n = 512) (hn : n < k) (hx : -255 ≤ x ∧ x ≤ 255) :
    testRunCount trim n (List.replicate k (4096 * x)) = x := by
  have h : (List.replicate k (4096 * x)).getD n 0 = 4096 * x := by
    rw [List.getD_eq_getElem?_getD, List.getElem?_replicate]
    simp [hn]
  have e : intervalCount 512 (4096 * x) = x := by
    unfold intervalCount halfEvenDiv
    dsimp only
    split <;> omega
  rw [testRunCount, h, ht, e, clipCount, if_neg (by omega), if_neg (by omega)]
theorem columns_below : ∀ n ∈ countFrom 0 256, n < 256 := by decide +kernel
theorem nominal_passes (trim : Nat → Nat) (k : Nat) (ht : ∀ n, trim n = 512) (hk : 256 ≤ k) :
    testFailure trim (nominal k) = none := by
  apply List.findSome?_eq_none_iff.mpr
  intro n h
  have hn := Nat.lt_of_lt_of_le (columns_below n h) hk
  have g (x : Int) (hx : -255 ≤ x ∧ x ≤ 255) := interval_counted trim n k x (ht n) hn hx
  have c := test_counts
  simp only [nominal, List.map_cons, List.map_nil, countFrom, List.findSome?_cons, List.findSome?_nil, List.getD_cons_zero,
    List.getD_cons_succ, g 170 (by omega), g (-170) (by omega), g 0 (by omega), g 64 (by omega), c.1, c.2.1, c.2.2.1, c.2.2.2]
  rfl
theorem witness_test_check : (part .ready).arraysRun = true ∧ (part .ready).programming 0 = false ∧ (part .ready).reedOps 0 = [] ∧
    testFailure ((part .ready).trim 0) [[175 * 4096]] = some (0, 0, 175) ∧
    (behind [.program 3 (.ring 7) programOps (some idleProgram)]).programming 0 = true := by decide +kernel
theorem witness_test_passes : testFailure ((part .ready).trim 0) (nominal 256) = none :=
  nominal_passes _ 256 (trims_reset) (Nat.le_refl 256)
/-- A part whose monitor window is full. -/
def fullWindow (reference : Option (List Nat)) (due : Bool) : State :=
  let s := (part .ready).setLed 0x6800 0x21 0 1
  { s with reed := { s.reed with health := [(0, { ReedHealth.blank with
      windowVectors := 4096, reference := reference, recalDue := due })] } }
theorem witness_window_full : (fullWindow none false).frontRuns = true ∧ (fullWindow none false).led 0x6800 0x21 = 1 ∧
    4096 ≤ ((fullWindow none false).health 0).windowVectors ∧ ((fullWindow none false).health 0).reference = none ∧
    ((fullWindow (some [1]) true).health 0).reference = some [1] ∧ ((fullWindow none true).health 0).recalDue = true ∧
    (fullWindow none true).reedOps 0 = [] ∧ (fullWindow none true).arraysRun = true := by decide +kernel
/-- Sixteen runs that count a number, and k of them one more; the column is the first. -/
def runs16 (k : Nat) (n : Int) : List (List Int) :=
  List.replicate (16 - k) [4096 * n] ++ List.replicate k [4096 * (n + 1)]
/-- The recalibration of the worked example of chapter 11: a column reads 2,580, −2,584, 4 and 972 over 16 runs. -/
def drifted : Measurement := [runs16 4 161, runs16 8 (-162), runs16 4 0, runs16 12 60]
/-- Its new trim is 731 (the table of that example). -/
theorem test_refit : (countFrom 0 4).map (fun v => runSum ((part .ready).trim 0) drifted v 0) = [2580, -2584, 4, 972] ∧
    meanFails ((part .ready).trim 0) drifted 0 = true ∧ (part .ready).newTrim 0 drifted 0 = some 731 ∧ refit 512 (-1) = none := by
  decide +kernel
/-- A measurement whose columns are all at their expected counts. -/
def evenRuns (k : Nat) : Measurement := (nominal k).map (List.replicate 16)
theorem even_passes (trim : Nat → Nat) (k n : Nat) (ht : trim n = 512) (h : n < k) : meanFails trim (evenRuns k) n = false := by
  have g (x : Int) (hx : -255 ≤ x ∧ x ≤ 255) := interval_counted trim n k x ht h hx
  have c := test_counts
  simp only [meanFails, runSum, countFrom, evenRuns, nominal, List.map_cons, List.map_nil, List.any_cons, List.any_nil,
    List.getD_cons_zero, List.getD_cons_succ, List.take_replicate, List.map_replicate, g 170 (by omega), g (-170) (by omega),
    g 0 (by omega), g 64 (by omega), c.1, c.2.1, c.2.2.1, c.2.2.2]
  decide
theorem witness_recalibration : (fullWindow none true).recalFailure 0 ⟨evenRuns 256, evenRuns 256⟩ = none := by
  have a : ∀ n ∈ countFrom 0 256, meanFails ((fullWindow none true).trim 0) (evenRuns 256) n = false :=
    fun n h => even_passes _ 256 n rfl (columns_below n h)
  unfold State.recalFailure
  rw [List.find?_eq_none.mpr (fun n h => by rw [a n h, Bool.false_and]; decide)]
  refine List.find?_eq_none.mpr fun n h => ?_
  rw [even_passes _ 256 n (by rw [State.trimAgain, a n h]; rfl) (columns_below n h)]
  decide
/-- FRAME_SYNC: no edge before, an edge 1,500 UCLK before, one 1,499 before. -/
def edged (u : Option Nat) : State := { part .ready with reed := { (part .ready).reed with lastFrame := u } }
theorem witness_edge : (edged none).frameRecognizes = true ∧ (edged none).reed.lastFrame = none ∧
    (edged (some 3500)).reed.lastFrame = some 3500 ∧ 3500 + 1500 ≤ (edged (some 3500)).power.uclk ∧
    (edged (some 3501)).power.uclk < 3501 + 1500 := by decide +kernel

/-- QueueAndEventRegisters: a queue with a ring of 16 that is enabled, disabled, FAULTED; a proofer; the limits of R404. -/
def enabledPart (q : Queue) : State := (part .ready).setQueue 9 q
theorem witness_registers : (part .ready).doorbellActs .host = true ∧ (part .ready).doorbellActs (.core 3) = true ∧
    parkedPart.parked 9 = true ∧ (part .ready).reaches .host = true ∧
    (enabledPart (oneRecord 9)).parked 9 = false ∧ ((enabledPart (oneRecord 9)).queue 9).enable = true ∧
    ((enabledPart (oneRecord 9)).queue 9).producerEnqueue = false ∧
    (((enabledPart (oneRecord 9)).queue 9).tail - ((enabledPart (oneRecord 9)).queue 9).head).toNat ≤ 16 ∧
    16 ≤ ((enabledPart (oneRecord 9)).queue 9).ringSize ∧ ¬ 17 ≤ ((enabledPart (oneRecord 9)).queue 9).ringSize ∧
    ((part .ready).queue 9).enable = false ∧
    ((enabledPart { oneRecord 9 with state := .faulted }).queue 9).state = .faulted ∧
    ((enabledPart (oneRecord 9)).work 9).quiet = true := by decide +kernel

/-- CommandsAndQueuesEnd: a command in flight; a queue without progress; queues that are being reset. -/
def flyingOne : InFlight := ⟨.ring 7, 0x20, naming 1, 0, [], none, [], [], [], [(64, [7])], []⟩
/-- A part with that command in flight on queue 3. -/
def inFlightPart : State := ((part .ready).setQueue 3 { oneRecord 3 with state := .running, head := 1 }).setWork 3
  { QueueWork.blank with inFlight := [flyingOne], watchPeriods := 3 }
theorem witness_ends : inFlightPart.completes 3 = true ∧ inFlightPart.programOf 3 (.ring 7) = none ∧
    inFlightPart.reed.ops = [] ∧ inFlightPart.front.subs = [] ∧ inFlightPart.memctl.lost = [] ∧
    inFlightPart.cache.lines = [] ∧ inFlightPart.flight 3 (.ring 7) = some flyingOne ∧ flyingOne.waitsFor = 0 ∧ flyingOne.fetches = [] ∧
    flyingOne.attend = none ∧ inFlightPart.frontRuns = true ∧ inFlightPart.busy 3 = true ∧
    (inFlightPart.work 3).watchProgress = (inFlightPart.queue 3).progress ∧
    (∀ q : QueueId, q ≠ 3 → (inFlightPart.work q).watchPeriods + 1 < inFlightPart.led 0x6000 0x12) ∧
    0 < inFlightPart.led 0x6000 0x12 ∧ (inFlightPart.setLed 0x6000 0x13 0 0).led 0x6000 0x13 = 0 ∧
    inFlightPart.led 0x6000 0x12 ≤ (inFlightPart.work 3).watchPeriods + 1 ∧
    ((enabledPart { oneRecord 9 with state := .resetting }).queue 9).state = .resetting ∧
    (enabledPart { oneRecord 9 with state := .resetting }).serving = true ∧
    (enabledPart { oneRecord 9 with state := .resetting }).reed.ops = [] ∧
    (enabledPart { oneRecord 9 with state := .resetting }).front.subs = [] := by decide +kernel

end Sys2Proof.Tests

namespace Sys2Proof.Tests

open Machine

/-! ### Witnesses: serving -/

/-- A part with its serving registers changed. -/
def serving (f : ServeRegs → ServeRegs) : State := { part .ready with serve := f (part .ready).serve }
/-- Rings that are enabled, with REQ_TAIL and TOK_TAIL at 5. -/
def ringsOn : State := serving fun r => { r with enable := true, reqLog2 := 4, tokLog2 := 4, reqTail := 5, tokTail := 5 }
theorem witness_rings : (part .ready).reachesServing .host = true ∧ (part .ready).reachesServing (.core 0) = true ∧
    (part .ready).serve.enable = false ∧ (1 : Word).getLsbD 0 = true ∧ (part .ready).serve.reqTail = 0 ∧
    (part .ready).serve.tokHead = 0 ∧ (serving fun r => { r with tokHead := 1 }).serve.tokHead ≠ 0 ∧
    (0 : Word).getLsbD 0 = false ∧ ringsOn.reachesServing .host = true ∧ ringsOn.serve.enable = true ∧
    (5 - ringsOn.serve.tokHead).toNat ≤ (ringsOn.serve.tokTail - ringsOn.serve.tokHead).toNat ∧
    (ringsOn.serve.tokTail - ringsOn.serve.tokHead).toNat < (6 - ringsOn.serve.tokHead).toNat ∧
    ringsOn.doorbellActs .host = true ∧ (ringsOn.serve.reqTail - ringsOn.serve.reqHead).toNat ≤ (5 - ringsOn.serve.reqHead).toNat ∧
    (16 - ringsOn.serve.reqHead).toNat ≤ ringsOn.serve.reqSize ∧ ringsOn.serve.reqSize < (17 - ringsOn.serve.reqHead).toNat ∧
    (4 - ringsOn.serve.reqHead).toNat < (ringsOn.serve.reqTail - ringsOn.serve.reqHead).toNat := by decide +kernel
/-- USERQ_REQUEST: a grant to queue 8 of 255 lanes and 64 counters, requests for queue 7 and of 4,096 counters. -/
theorem witness_userq : (part .ready).runtimeRuns = true ∧ changeable ((part .ready).queue 8).state = true ∧
    (part .ready).laneSpans 8 255 ≠ [] ∧ 7 < 8 ∧ 4095 < 4096 := by decide +kernel
theorem witness_userq_counters : (part .ready).counterSpans 8 64 ≠ [] :=
  List.ne_nil_of_mem (a := 512) (List.mem_filter.mpr ⟨by decide +kernel, by decide +kernel⟩)
/-- A manifest header of model 5 that serves from pool 0 (R460), and the model. -/
def manifestBytes : List Byte := toBytes 4 5 ++ toBytes 4 1000 ++ [0, 0] ++ toBytes 2 0 ++ toBytes 4 0 ++ toBytes 4 512
def model5 : Model := ⟨5, 1000, 0, 0, 0, 0, 512⟩
/-- A part with pool 0 configured and that header at MODEL_ADDR; the model may be registered. -/
def modelled (state : DevState) (l : List Model) : State :=
  let s := (part state).setLed 0x5000 0x10 0 (ofBytes onePool)
  { s with mem := bytesAt 0 manifestBytes, runtime := { s.runtime with models := l } }
theorem witness_models : (modelled .ready []).reachesServing .host = true ∧ (modelled .ready []).runtimeRuns = true ∧
    (modelled .ready []).manifest = some model5 ∧ (modelled .ready []).life.state = .ready ∧
    (modelled .ready []).registerCode model5 0 = 0 ∧ (modelled .ready []).registerCode model5 4 ≠ 0 ∧
    model5 ∈ (modelled .ready [model5]).runtime.models ∧ (modelled .ready [model5]).modelInUse 5 = false := by decide +kernel
/-- A record that is held while the token ring has room. -/
def heldRecord : TokenRec := ⟨9, some 7, 3, 0, 0, 0, 0, 0, none⟩
def withHeld : State := { ringsOn with runtime := { ringsOn.runtime with held := [heldRecord], signalDue := true } }
theorem witness_held : withHeld.runtimeRuns = true ∧ withHeld.runtime.held = [heldRecord] ∧ heldRecord.encoder = none ∧
    withHeld.serve.enable = true ∧ withHeld.serve.tokInHost = false ∧
    (withHeld.serve.tokTail - withHeld.serve.tokHead).toNat < withHeld.serve.tokSize ∧
    withHeld.target (withHeld.serve.tokAddress 5) 32 = .here 160 ∧ withHeld.serve.tokAddress 5 < 2 ^ 63 ∧
    withHeld.memctl.lost = [] ∧ withHeld.runtime.signalDue = true := by decide +kernel

/-! ### Witnesses: intake -/

/-- A GENERATE record of request 9 with two tokens at 4096 (R461), of a model and with flag bits. -/
def generateRecord (tag flags : Nat) : List Byte :=
  toBytes 4 9 ++ [1, 0] ++ toBytes 2 flags ++ toBytes 4 tag ++ toBytes 4 2 ++ toBytes 8 4096 ++ gap 24 ++ toBytes 8 1 ++
    toBytes 4 0 ++ toBytes 4 0x3F800000 ++ toBytes 4 0x3F800000 ++ gap 4 ++ toBytes 4 16 ++ gap 52
/-- A CANCEL record of request 9. -/
def cancelRecord : List Byte := gap 4 ++ [2] ++ gap 71 ++ toBytes 4 9 ++ gap 48
/-- A part in service with model 5, one record in its request ring at 0, and two tokens at 4096. -/
def asked (record : List Byte) (token : Nat) : State :=
  let s := modelled .inService [model5]
  { s with
    mem := bytesAt 0 record ++ bytesAt 4096 (toBytes 4 1 ++ toBytes 4 token)
    serve := { s.serve with enable := true, reqLog2 := 4, tokLog2 := 4, reqTail := 1, tokTail := 16 } }
/-- What is read for that request. -/
def twoTokens (token : Nat) : RequestData := ⟨toBytes 4 1 ++ toBytes 4 token, [], [], []⟩
theorem witness_generate : ∀ p ∈ [(999, 0), (1000, 7)], let s := asked (generateRecord 5 0) p.1;
    (s.nextRecordOf calm).2 = (some (generateRecord 5 0), []) ∧ reqField (generateRecord 5 0) 4 1 ≠ 2 ∧
    (s.runtime.models.find? fun m => m.tag == reqField (generateRecord 5 0) 8 4) = some model5 ∧
    (s.nextRecordOf calm).1.rejectEarly (generateRecord 5 0) (some model5) = 0 ∧
    s.rejectLate (generateRecord 5 0) model5 (twoTokens p.1) = p.2 ∧
    (requestOf (generateRecord 5 0) model5 (twoTokens p.1)).promptLength ≠ 65536 ∧ s.tokenSlot = false := by
  decide +kernel
theorem witness_generate_read : ∀ token ∈ [999, 1000], let s := asked (generateRecord 5 0) token;
    (((s.nextRecordOf calm).1.readRequest calm (generateRecord 5 0) model5 []).2.map fun d =>
      (d.prompt, d.stops, d.encoded, d.rows)) = some (toBytes 4 1 ++ toBytes 4 token, [], [], []) := by decide +kernel
theorem witness_generate_early : let s := asked (generateRecord 6 0) 0;
    (s.nextRecordOf calm).2 = (some (generateRecord 6 0), []) ∧ reqField (generateRecord 6 0) 4 1 ≠ 2 ∧
    (s.runtime.models.find? fun m => m.tag == reqField (generateRecord 6 0) 8 4) = none ∧
    (s.nextRecordOf calm).1.rejectEarly (generateRecord 6 0) none = 3 ∧ s.tokenSlot = false := by decide +kernel
theorem witness_cancel : let s := asked cancelRecord 0;
    (s.nextRecordOf calm).2 = (some cancelRecord, []) ∧ reqField cancelRecord 4 1 = 2 ∧ s.serving = true ∧
    s.runtimeRuns = true := by decide +kernel

/-! ### Witnesses: assembly and sampling -/

/-- That request as the runtime keeps it, of a model, and its sequence, with its page list at 0xD000000. -/
def request9 (m : Model := model5) : ServeRequest := requestOf (generateRecord 5 0) m (twoTokens 999)
def place9 : SequencePlace := ⟨9, 0, 0xD000000, 0xD010000, 0xD020000, [(0xD021000, 0xD022000)]⟩
def sequence9 (prefilled : Bool) (m : Model := model5) : Sequence :=
  ⟨0, request9 m, place9, 0, none, [], prefilled, prefilled, 0, false, false⟩
/-- A step of one BAKE on queue 0: its query table lies at 0xD030000, its parameter block at 0xD040000. -/
def step9 : StepPlan := ⟨0, 5, [0xD030000], [⟨4, 0xD040000, []⟩]⟩
/-- A recipe image without parameters, of nodes and edges (R419). -/
def stepImage (nodes : List (List Byte)) (edges : List Nat) : List Byte :=
  toBytes 4 7 ++ toBytes 2 nodes.length ++ toBytes 2 edges.length ++ toBytes 2 0 ++ [0, 1] ++ gap 52 ++ nodes.flatten ++
    edges.flatMap (toBytes 4) ++ gap (8 - 4 * edges.length % 8)
/-- KV_ATTEND of queries of that table, and KV_APPEND of the two rows of the prompt. -/
def attendNode (queries : Half) : List Byte :=
  recordOf 0x31 (naming 1) (attendBody ⟨0, 0, queries, 6, 0xD030000, 0x3F800000, 0x1000, 256, 0x2000, 256⟩)
def appendNode : List Byte := recordOf 0x30 (naming 1) (appendBody ⟨0, 0, 0, 2, 0, 0xD000000⟩)
/-- A part in service whose pool 0 has 64 frames, with a tree and a kernel queue 0, a recipe in its store, and its runtime. -/
def assembling (image : List Byte) (f : Runtime → Runtime) : State :=
  let s := ((modelled .inService [model5]).setLed 0x5000 0x10 0 (ofBytes (onePool.take 12 ++ toBytes 4 64 ++
    (onePool.drop 16).take 24 ++ toBytes 4 64 ++ gap 20))).setQueue 0 { oneRecord 0 with tail := 0, ringBase := 0xE000000 }
  { s with
    runtime := f s.runtime
    tree := { s.tree with place := ⟨0x3000000, 0x4000000, 0x3400000⟩ }
    front := { s.front with recipes := [(4, some ⟨image, 0, 1⟩)] } }
theorem roomy_of_lt (s : State) (h : ∀ p < 8, ∀ d ∈ s.pool p, ∀ c ∈ d.cells, s.led 0x5400 0x10 p ≤ s.freeFrames p d c) :
    Safety.roomy s := by
  intro p d c hd hc
  by_cases l : p < 8
  · exact h p l d hd c hc
  · simp [State.pool, l] at hd
theorem witness_room (f : Runtime → Runtime) (h : ∀ r, (f r).frames = r.frames) (image : List Byte) :
    Safety.roomy (assembling image f) := by
  have q : Safety.roomy (assembling [] id) := roomy_of_lt _ (by decide +kernel)
  intro p d c hd hc
  have e : (assembling image f).freeFrames p d c = (assembling [] id).freeFrames p d c := by
    simp [State.freeFrames, State.mappedIn, assembling, h]
  rw [e]
  exact q p d c hd hc
theorem witness_admission : let s := assembling [] fun r => { r with intake := [.request request9] };
    s.assembles = true ∧ Safety.sound s ∧ s.runtime.intake = [.request request9] ∧ s.runtime.sequences = [] ∧
    request9.flags = 0 ∧ [place9].find? (fun y => y.request.toNat == request9.id) = some place9 ∧
    (s.pool request9.model.pool).isSome = true ∧ (∀ d ∈ s.pool 0, 1 = (request9.promptLength + d.size - 1) / d.size ∧
      d.cells = [0] ∧ (s.mappedIn 0 0).length + 1 + 1 ≤ min d.frames d.names ∧ s.placeFits d place9 false = true) := by
  unfold Safety.sound
  decide +kernel
theorem witness_batch :
    let s := { (assembling (stepImage [attendNode 1] []) fun r => { r with sequences := [sequence9 true] }) with
      mem := bytesAt 0xD000008 [1] };
    s.assembles = true ∧ Safety.sound s ∧ s.runtime.intake = [] ∧ s.runtime.sequences = [sequence9 true] ∧
    s.reservedPage (sequence9 true) = some 1 ∧ s.inStep 0 = false ∧ s.holdsRecord 9 = false ∧
    s.runtime.models.find? (fun m => m.tag == 5) = some model5 ∧ (s.pool 0).isSome = true ∧
    (countFrom 0 256).find? (fun l => !s.laneGranted l) = some 0 ∧ (∀ d ∈ s.pool 0, (sequence9 true).bucket d.size = 0 ∧
      s.planFits step9 d 0 [⟨0xD030000, [(sequence9 true, 1, 0, 0)]⟩] = true) ∧ (sequence9 true).position - 1 = 1 ∧
    s.postable step9.queue step9.bakes.length = true ∧
    ∀ k a, s.cacheableAt ((s.queue step9.queue).recordAddress k) 64 = some a → Safety.off 0xD030000 16 a 64 := by
  unfold Safety.sound
  intro s
  refine ⟨by decide +kernel, by decide +kernel, rfl, rfl, by decide +kernel, by decide +kernel, by decide +kernel,
    by decide +kernel, by decide +kernel, by decide +kernel, by decide +kernel, by decide +kernel, by decide +kernel, ?_⟩
  intro k a h
  have n : (s.queue step9.queue).ringSize = 16 := by decide +kernel
  have b : (s.queue step9.queue).ringBase.toNat = 0xE000000 := by decide +kernel
  rw [Queue.recordAddress, n, b, State.cacheableAt, State.localOf] at h
  split at h
  · next g e =>
    split at h <;> split at e <;> simp at h e
    unfold Safety.off
    omega
  · simp at h
theorem witness_prefill :
    let s := (assembling (stepImage [appendNode, attendNode 2] [4096]) fun r => { r with sequences := [sequence9 false] });
    s.assembles = true ∧ Safety.sound s ∧ s.runtime.intake = [] ∧ s.runtime.sequences = [sequence9 false] ∧
    s.inStep 0 = false ∧ s.runtime.models.find? (fun m => m.tag == 5) = some model5 ∧ (s.pool 0).isSome = true ∧
    (∀ d ∈ s.pool 0, s.appendsCover d (sequence9 false) ((step9.bakes.map s.bakeNodes).flatMap Prod.fst) = true ∧
      s.planFits step9 d 0 ((sequence9 false).prefillTables step9.tables) = true) ∧
    s.postable step9.queue step9.bakes.length = true := by
  unfold Safety.sound
  decide +kernel
/-- A model of two tokens, and a prefill of a sequence of that model in progress, whose last bake has left two logits in the buffer of
cell 0, the second larger; a peer may be gone. -/
def model2 : Model := { model5 with vocabulary := 2 }
def stepRun (lost : Option (List Byte)) : StepRun := ⟨3, true, [(0, 0)], 0, 5, 1, lost⟩
def stepping (lost : Option (List Byte)) (gone : Byte) : State :=
  let s := (assembling [] fun r => { r with sequences := [sequence9 false model2], steps := [stepRun lost] }).setCounter 5 ⟨1, false⟩
  { s with
    cells := { s.cells with buf := (toBytes 4 0x3F800000 ++ toBytes 4 0x40000000).zipIdx.map fun x => (0x100 + x.2, x.1) }
    mem := if gone = 0 then [] else bytesAt 0xD00000E [gone] }
def result9 : LaneResult := ⟨[⟨0, none, 0x100, 2⟩], 0⟩
theorem witness_sampling : ∀ g ∈ ([0, 7] : List Byte), let s := stepping none g;
    s.runtimeRuns = true ∧ s.runtime.steps.find? (fun t => t.number == 3) = some (stepRun none) ∧
    s.sequence? 0 = some (sequence9 false model2) ∧ s.stepDone (stepRun none) = true ∧
    s.resultsFit (stepRun none) [result9] = true ∧ s.tokenSlot = false ∧
    s.goneDevice (sequence9 false model2) = if g = 0 then none else some 3 := by decide +kernel
/-- At temperature 0 no free value is asked. -/
theorem greedy_is_not_free (l : List F32) (q : Nat) (seed : DWord) (topP penalty : F32) (k : Nat) (tokens : List Nat)
    (a b : Nat) : sampleToken l q seed 0 topP penalty k tokens a = sampleToken l q seed 0 topP penalty k tokens b := by
  simp [sampleToken]
theorem witness_sample (free : Nat) : let x := sequence9 false model2;
    sampleToken (result9.logits.flatMap (stepping none 0).spanLogits) x.position x.request.seed x.request.temperature
      x.request.topP x.request.penalty x.request.topK (x.request.prompt ++ x.generated) free = some 1 := by
  have t : (sequence9 false model2).request.temperature = 0 := by decide +kernel
  intro x
  rw [t, greedy_is_not_free _ _ _ _ _ _ _ free 0]
  decide +kernel
/-- Queue fault records: one of a command of its own, and a KV fault that names sequence 0 (R312, R445). -/
theorem witness_lost_step : ∀ e ∈ [(gap 32, none), ([byte badKv] ++ gap 15 ++ toBytes 8 (2 ^ 31), some (sequence9 false model2))],
    let s := stepping (some e.1) 0;
    s.runtimeRuns = true ∧ s.runtime.steps.find? (fun t => t.number == 3) = some (stepRun (some e.1)) ∧
    s.culprit (stepRun (some e.1)) e.1 none = e.2 ∧ s.tokenSlot = false ∧ (sequence9 false model2).ended = false := by
  decide +kernel
theorem witness_lease : let s := (assembling [] id).setLed 0x6400 0x12 5 1;
    let t : State := { s with life := { s.life with state := .ready } };
    t.runtimeRuns = true ∧ t.life.state = .ready ∧ t.led 0x1100 0x11 = 1 ∧
    (((List.range 8).filter fun e => e != t.uhleg.devId.toNat).map fun e => t.led 0x6400 0x12 e).sum = 1 ∧
    (∀ p < 8, ∀ d ∈ t.pool p, ∀ c ∈ d.cells, (t.mappedIn p c).length + 1 ≤ min d.frames d.names) ∧
    t.pool 0 ≠ none ∧ t.pool 1 = none := by decide +kernel

end Sys2Proof.Tests

namespace Sys2Proof.Tests

open Machine

/-! ### Witnesses: Aelis -/

/-- A part with one port, and what it keeps. -/
def linked (p : PortId) (x : Port) (w : PortWork := PortWork.blank) : State := ((part .ready).setPort p x).setLink p w
def upPort : Port := { Port.blank with state := .up }
/-- IDENT of the peer at device 1, port 6, seen by port 0 of device 0, and of a peer at another place (R516). -/
def identFlit (peer : Byte) : List Byte := [2, 1, 0, 0] ++ toBytes 4 0x4800 ++ [0xB1, 0, peer, 6, 2] ++ gap 239
/-- A training whose worst lane has some bit errors (R516). -/
def training (errors : Nat) : TrainingRun :=
  ⟨List.replicate 4 5012, [], [], countFrom 0 64, 16000, errors, true, List.replicate 64 20⟩
theorem witness_training : (linked 0 { Port.blank with state := .training }).trains 0 = true ∧
    failureCode (training 2113) = 6 ∧ failureCode (training 2112) = 0 ∧
    (∀ peer ∈ ([1, 2] : List Byte),
      let s := linked 0 { Port.blank with state := .training, awaiting := true }
        { PortWork.blank with control := [identFlit peer] };
      (s.link 0).control = [identFlit peer] ∧ imageNat (identFlit peer) 0 1 = 2 ∧ (s.port 0).state = .training ∧
        (s.port 0).awaiting = true ∧ s.trains 0 = true ∧ s.census 0 (identFlit peer) = (peer == 1)) := by decide +kernel
/-- GOODBYE and SKIP flits (R497). -/
def goodbyeFlit : List Byte := [3, 0, 0, 0] ++ gap 248
def skipFlit : List Byte := [1, 0, 0, 0] ++ toBytes 4 2 ++ toBytes 4 1 ++ gap 240
theorem witness_port_ends : ((linked 0 upPort).port 0).state = .up ∧
    (((linked 0 upPort { PortWork.blank with control := [goodbyeFlit] }).link 0).control = [goodbyeFlit]) ∧
    imageNat goodbyeFlit 0 1 = 3 ∧ imageNat skipFlit 0 1 = 1 ∧
    (∀ n ∈ [3, 4], let s := linked 0 { upPort with replay := [(0, gap 256)], attempts := n };
      (s.port 0).replay ≠ [] ∧ (s.port 0).attempts = n ∧ (s.port 0).state = .up) ∧
    ((linked 0 { Port.blank with state := .down }).port 0).state = .down ∧
    (let s := linked 0 upPort { PortWork.blank with control := [skipFlit] };
      (s.link 0).control = [skipFlit] ∧ (s.port 0).waiting = []) := by decide +kernel
/-- MEM_READ of 16 bytes at 0x1000 (R508), in the first flit of a frame (R492). -/
def readRequest : List Byte := [1, 3, 0, 0] ++ toBytes 4 16 ++ toBytes 8 0x1000
def frameBytes : List Byte := flitHeader 0 4095 false 1 ++ padTo 0 252 readRequest ++ gap 380 ++ toBytes 4 1515948928 ++ gap 640
/-- Its first codeword, with the check symbols; its CRC is 0, and so is its second codeword. -/
def firstWord : List Nat :=
  (frameData 0 0 frameBytes).getD 0 [] ++ [86, 225, 650, 88, 948, 340, 444, 172, 672, 576, 227, 1012, 809, 962, 181, 9, 843, 678,
    342, 403, 109, 556, 696, 58, 147, 359, 908, 887, 301, 537]
/-- That frame as light, and one of dark fibers. -/
def oneFrame : FecFrame := ⟨codewordFibers firstWord, []⟩
def darkFrame : FecFrame := ⟨[], []⟩
theorem witness_frames : let s := linked 0 upPort;
    (s.port 0).state = .up ∧ (s.port 0).waiting = [] ∧ (s.link 0).badFrames < 63 ∧ (s.link 0).badCounters < 63 ∧
    (s.port 0).replay = [] := by decide +kernel
/-- Horner's rule with the zeros in front passed over. -/
def horner (x : Nat) : List Nat → Nat → Nat
  | [], acc => acc
  | c :: t, acc => if acc = 0 then horner x t c else horner x t (fieldMul acc x ^^^ c)
theorem horner_eq (x : Nat) (l : List Nat) (acc : Nat) : l.foldl (fun acc c => fieldMul acc x ^^^ c) acc = horner x l acc := by
  induction l generalizing acc with
  | nil => rfl
  | cons c t ih =>
    rw [List.foldl_cons, ih, horner]
    split
    · next h => simp [h, fieldMul]
    · rfl
theorem rsDecode_codeword (word : List Nat) (h : (countFrom 0 30).all (fun j => horner (fieldAlpha j) word 0 == 0) = true) :
    rsDecode word = some (word, 0) := by
  have e : (rsSyndromes word).all (· == 0) = true := by
    rw [rsSyndromes, List.all_map]
    simp only [Function.comp_def, horner_eq]
    exact h
  rw [rsDecode]
  simp only [e, if_true]
theorem first_word : rsDecode (fibersCodeword (codewordFibers firstWord)) = some (firstWord, 0) := by
  have e : fibersCodeword (codewordFibers firstWord) = firstWord := by decide +kernel
  rw [e]
  exact rsDecode_codeword _ (by decide +kernel)
/-- Dark fibers spell a codeword of zeros. -/
theorem dark_word : rsDecode (fibersCodeword []) = some (List.replicate 544 0, 0) := by
  have e : fibersCodeword [] = List.replicate 544 0 := by decide +kernel
  rw [e]
  exact rsDecode_codeword _ (by decide +kernel)
theorem zero_data (v : Nat) (h : v ∈ [0, 20]) : List.replicate 544 0 =
    symbolsOf (bits (frameMarker 0 0) v 20) 2 ++ symbolsOf (ofBytes (gap 640)) 512 ++ List.replicate 30 0 := by
  revert v
  decide +kernel
theorem witness_frame_read : receivedFrame oneFrame.first oneFrame.second = (0, some (0, 0, frameBytes)) := by
  have e : frameBytes.drop 640 = gap 640 := by decide +kernel
  have z := zero_data 20 (by decide)
  rw [← e] at z
  exact receivedFrame_of_codewords _ _ _ _ _ _ _ (by decide +kernel) first_word (z ▸ dark_word)
/-- The CRC of bytes, a step at a time. -/
def crcRun : List Byte → Word → Word
  | [], c => c
  | b :: t, c => if c = 0 then crcRun t (crc32Byte 0 b) else crcRun t (crc32Byte c b)
theorem crcRun_eq (l : List Byte) (c : Word) : l.foldl crc32Byte c = crcRun l c := by
  induction l generalizing c with
  | nil => rfl
  | cons b t ih =>
    rw [List.foldl_cons, ih, crcRun]
    split
    · next h => rw [h]
    · rfl
theorem witness_frame_sums : crc32 frameBytes = 0 ∧ crc32 (gap 1280) ≠ 0 := by
  rw [crc32, crc32, crcRun_eq, crcRun_eq]
  decide +kernel
theorem witness_dark_frame : ∀ n crc bytes, (receivedFrame darkFrame.first darkFrame.second).2 = some (n, crc, bytes) →
    crc32 bytes ≠ crc := by
  have e : (gap 1280).take 640 = gap 640 ∧ (gap 1280).drop 640 = gap 640 := by decide +kernel
  have z := zero_data 0 (by decide)
  have z' := zero_data 20 (by decide)
  rw [← e.1] at z
  rw [← e.2] at z'
  have f := receivedFrame_of_codewords [] [] 0 0 (gap 1280) _ _ (by decide +kernel) (z ▸ dark_word) (z' ▸ dark_word)
  intro n crc bytes h
  have q : (receivedFrame darkFrame.first darkFrame.second).2 = some (0, 0, gap 1280) := congrArg Prod.snd f
  rw [q] at h
  obtain ⟨-, rfl, rfl⟩ := h
  exact witness_frame_sums.2
theorem witness_flit : ∃ flit nulls rest items, chunks 256 frameBytes = flit :: nulls ∧
    (∀ x ∈ nulls, bits (imageNat x 0 4) 25 2 = 0 ∧ bit (imageNat x 0 4) 24 = false) ∧
    bits (imageNat flit 0 4) 25 2 = 1 ∧ bit (imageNat flit 0 4) 24 = false ∧ bits (imageNat flit 0 4) 0 12 = 0 ∧
    parseStream kindReq 64 ((flit.drop 4).take 252) = (rest, items, false) ∧ items = [readRequest] := by
  refine ⟨(chunks 256 frameBytes).headD [], (chunks 256 frameBytes).tail,
    (parseStream kindReq 64 ((((chunks 256 frameBytes).headD []).drop 4).take 252)).1, [readRequest], ?_⟩
  decide +kernel
/-- Requests of a peer: MEM_WRITE, ATOMIC_OP that asks for the old value, PAGE_READ and PAGE_WRITE of one row of pool 0's
page 0, and accesses that this device does not serve (R508, R513). -/
def requests : List (List Byte) :=
  [readRequest, [2, 3, 0, 0] ++ toBytes 4 16 ++ toBytes 8 0x1000 ++ List.replicate 16 7,
    [3, 3, 0, 1, 1, 0, 0, 0] ++ toBytes 8 0x1000 ++ toBytes 8 1 ++ toBytes 8 0,
    [4, 3, 0, 0] ++ toBytes 4 512 ++ toBytes 4 0 ++ [0, 0, 0, 0] ++ onePool.take 8 ++ toBytes 2 0 ++ toBytes 2 1 ++ gap 4,
    [5, 3, 0, 0] ++ toBytes 4 512 ++ toBytes 4 0 ++ [0, 0, 0, 0] ++ onePool.take 8 ++ toBytes 2 0 ++ toBytes 2 1 ++ gap 4 ++
      List.replicate 512 1]
/-- A part with pool 0, whose page 0 is mapped, and such a request at the front of port 0. -/
def asking0 (r : List Byte) : State :=
  (linked 0 upPort { PortWork.blank with requests := [(r, true)] }).setLed 0x5000 0x10 0 (ofBytes onePool)
theorem witness_served : ∀ r ∈ requests, let s := asking0 r;
    (s.link 0).requests = [(r, true)] ∧ (s.port 0).state = .up ∧ (s.port 0).waiting = [] ∧ Safety.sound s ∧
    (imageNat r 0 1 ≤ 2 → peerRange (imageNat r 8 8) (imageNat r 4 4) = true ∧
      (imageNat r 0 1 = 2 → 16 + imageNat r 4 4 ≤ r.length)) ∧
    (imageNat r 0 1 = 3 → 1 ≤ imageNat r 4 1 ∧ imageNat r 4 1 ≤ 13 ∧ atomicWidth (imageNat r 4 1) = 4 ∧ imageNat r 8 8 % 4 = 0 ∧
      s.allCacheable (imageNat r 8 8) 4 = true) ∧
    (4 ≤ imageNat r 0 1 → (s.peerPage r calm).2 = some (0x100000, 512) ∧ (imageNat r 0 1 = 5 → 32 + 512 ≤ r.length)) := by
  unfold Safety.sound
  decide +kernel
theorem witness_not_served : ∀ k ∈ [1, 2, 3, 4, 5], let r : List Byte := [byte k, 3, 0, 0] ++ toBytes 4 8 ++ toBytes 8 (2 ^ 43) ++ gap 24;
    (k ≤ 2 → peerRange (imageNat r 8 8) (imageNat r 4 4) = false) ∧
    (k = 3 → (asking0 r).allCacheable (imageNat r 8 8) (atomicWidth (imageNat r 4 1)) = false) ∧
    (4 ≤ k → ((asking0 r).peerPage r calm).2 = none) := by decide +kernel
/-- A response of 16 bytes to request 3, and what awaits it. -/
def reply3 (k status : Nat) : List Byte := [byte (k + 7 + 16 * status), 3, 0, 0] ++ toBytes 4 16 ++ toBytes 8 42 ++ List.replicate 16 9
def copyFlight : InFlight := ⟨.ring 7, 0x10, naming 1, 2, [], none, [], [], [], [], []⟩
/-- A KV_ATTEND in flight that waits for two parts of a page. -/
def pageFlight : InFlight :=
  ⟨.ring 7, 0x31, naming 1, 1, [], some ⟨attendOps, []⟩, [⟨0, 0, 0, 0x20000000, 0, 64, [], 2⟩], [], [], [], []⟩
/-- A part with a command in flight on queue 3 that awaits a response on port 0. -/
def responding (k status : Nat) (f : InFlight) (w : Waiter) : State :=
  let s := (part .ready).setQueue 3 { oneRecord 3 with state := .running, head := 1 }
  ((s.setWork 3 { QueueWork.blank with inFlight := [f] }).setPort 0 upPort).setLink 0 { PortWork.blank with
    responses := [(reply3 k status, true)], outstanding := [⟨3, k, 16, w⟩] }
/-- Whoever may await the answer to each request. -/
def waiters : List (Nat × Waiter) :=
  [(1, .copy 3 (.ring 7) (.buffers [0] 0x1000)), (1, .copy 3 (.ring 7) (.memory 0x1000)), (1, .copy 3 (.ring 7) (.host 0x1000)),
    (1, .copy 3 (.ring 7) (.remote 2 0x1000)), (2, .write 3 (.ring 7)), (3, .atomic 3 (.ring 7) 0 (some 0x1000) 1 4 0),
    (3, .atomic 3 (.ring 7) 0 none 1 4 0), (4, .page 3 (.ring 7) 0 0 0 0 1),
    (5, .append 3 (.ring 7) 0x4000 0 0x20000000 1), (5, .rows 0x4000 0x20000000)]
theorem witness_responses : ∀ e ∈ waiters, let s := responding e.1 0 (if e.1 = 4 then pageFlight else copyFlight) e.2;
    (s.link 0).responses = [(reply3 e.1 0, true)] ∧ (s.port 0).state = .up ∧ (s.link 0).queue = [] ∧
    imageNat (reply3 e.1 0) 0 1 % 16 = e.1 + 7 ∧ imageNat (reply3 e.1 0) 0 1 / 16 = 0 ∧ imageNat (reply3 e.1 0) 4 4 ≤ 4096 ∧
    (s.link 0).outstanding.find? (fun o => o.tag == imageNat (reply3 e.1 0) 1 2 && o.opcode == e.1) =
      some ⟨3, e.1, 16, e.2⟩ ∧ Safety.sound s ∧ s.pcie.up = true ∧ 0x1000 + 16 ≤ 2 ^ 47 ∧
    (e.1 = 4 → (s.fetchOf 3 (.ring 7) 0 0 0).map (fun g => g.2.awaited) = some 2) := by
  unfold Safety.sound
  decide +kernel
theorem witness_failed_response : let s := responding 2 1 copyFlight (.write 3 (.ring 7));
    imageNat (reply3 2 1) 0 1 / 16 ≠ 0 ∧ (s.work 3).inFlight.any (fun x => x.place == .ring 7) = true ∧
    (s.queue 3).state ≠ .resetting ∧ (s.queue 3).state ≠ .faulted := by decide +kernel

/-! ### Witnesses: PCIe and the test access port -/

theorem witness_link : (part .ready).pcie.up = true ∧ (∀ q : QueueId, ((part .ready).work q).inFlight = []) ∧
    (let s := { part .ready with pcie := { (part .ready).pcie with up := false } };
      s.pcie.up = false ∧ s.linkTrains 6 16 true = true ∧ s.linkTrains 7 16 true = false) ∧ (part .ready).life.state ≠ .peat ∧
    (let s := { part .peat with pcie := Pcie.blank };
      s.life.state = .peat ∧ s.mainPower = true ∧ s.power.inWindow.vaux33 = true ∧ s.life.peatTried = false ∧
        s.pcie.enabled = false ∧ s.power.clocksStopped = false ∧ s.power.sequenceBlock = none ∧
        ({ s with power := { s.power with sequenceBlock := some 2 } } : State).mainPower = true) ∧ (part .ready).decodes = true ∧
    { (part .ready).pcie with d3hot := true }.d3hot = true ∧ (part .ready).power.clocksStopped = false ∧ 30 ≤ 37 ∧ (part .ready).barOpen = true ∧
    (part .ready).frontRuns = true := by decide +kernel
/-- A command of queue 3 that waits for host memory. -/
def hostReading : State := ((part .ready).setQueue 3 { oneRecord 3 with state := .running, head := 1 }).setWork 3
  { QueueWork.blank with inFlight := [{ copyFlight with waitsFor := 1, hostReads := [0x2000] }] }
theorem witness_timeout : (hostReading.flight 3 (.ring 7)).map InFlight.hostReads = some [0x2000] ∧
    (hostReading.queue 3).state ≠ .resetting ∧ (hostReading.queue 3).state ≠ .faulted := by decide +kernel
/-- A write of bytes, all enabled. -/
def barWrite (offset : Nat) (bytes : List Byte) (poisoned : Bool := false) : BarWrite := ⟨offset, bytes.map some, poisoned⟩
theorem witness_bar0 : (part .ready).decodes = true ∧ (part .ready).life.state ≠ .peat ∧ (part .ready).reaches .host = true ∧
    (barWrite 0x3FFFFFC (gap 4)).offset + (barWrite 0x3FFFFFC (gap 4)).bytes.length ≤ 0x4000000 ∧
    (barWrite 0x20 (gap 4) true).poisoned = true ∧ barDwords (barWrite 0x20 (gap 3)) = none ∧
    barDwords (barWrite 0x20 (toBytes 4 0x40000000)) = some [(0x20, 0x40000000)] ∧
    barDwords (barWrite 0x24 (toBytes 4 31)) = some [(0x24, 31)] ∧ barDwords (barWrite 0x0C (toBytes 4 3)) = some [(0x0C, 3)] ∧
    barDwords (barWrite (0x200000 + 32 * 4095 + 16) (toBytes 8 5)) =
      some [(0x200000 + 32 * 4095 + 16, 5), (0x200000 + 32 * 4095 + 20, 0)] := by decide +kernel
/-- The window over an address. -/
def windowed (state : DevState) (high : BitVec 5) : State :=
  { part state with pcie := { (part state).pcie with windowHi := high, windowLo := high.setWidth 2 } }
theorem witness_bar2 : ∀ h ∈ ([0, 31] : List (BitVec 5)), let s := windowed .ready h;
    s.decodes = true ∧ 4096 + 128 ≤ 2 ^ s.pcie.bar2Log ∧ Safety.sound s ∧ s.windowOpen = true ∧
    populated (s.windowAddress 4096) 128 = (h == 0) ∧ (barWrite 4096 (gap 128)).poisoned = false ∧
    (windowed .standby h).windowOpen = false := by
  unfold Safety.sound
  decide +kernel
/-- The test access port has power in STANDBY and READY; a part whose factory access is unlocked. -/
theorem witness_jtag : (part .standby).power.inWindow.vaux33 = true ∧ (part .standby).life.state = .standby ∧
    (part .ready).power.inWindow.vaux33 = true ∧ (part .ready).life.state ≠ .standby ∧ (part .ready).life.state ≠ .peat ∧
    ((part .standby).setLed 0x9000 1 0 1).led 0x9000 1 = 1 ∧ (part .standby).led 0x9000 1 ≠ 1 := by decide +kernel

end Sys2Proof.Tests

namespace Sys2Proof.Tests

open Machine

/-! ### Worked examples of the spec -/

/-- Chapter 2: FP8 conversions of 300, 450 and 470. -/
theorem test_fp8_conversions : f32ToFp8 0x43960000 = (0x79, {}) ∧ f32ToFp8 0x43E10000 = (0x7E, {}) ∧
    (f32ToFp8 0x43EB0000).1 = 0x7E ∧ (f32ToFp8 0x43EB0000).2 ≠ {} := by decide +kernel
/-- Chapter 2: byte 0x7A of a block of scale 0x7E holds −0.5 and 3.0. -/
theorem test_mxfp4 : (mxValue 0xA 0x7E).numEq (f32Value 0xBF000000) = true ∧
    (mxValue 0x7 0x7E).numEq (f32Value 0x40400000) = true := by decide +kernel
/-- Chapter 2: 2^24 + 1 + 1 in one pass is exact. -/
theorem test_exact_pass : (passElement [bf16Value 0x4B80, bf16Value 0x3F80, bf16Value 0x3F80]
    [bf16Value 0x3F80, bf16Value 0x3F80, bf16Value 0x3F80] 0 false).1 = 0x4B800001 := by decide +kernel
/-- Chapter 5: the decode of 0xB_2345_6780, and the first byte of chimney 2's hole. -/
theorem test_address_decode : chimneyOf 0xB23456780 = 5 ∧ channelOf 0xB23456780 = 5 * 32 + 7 ∧ bankOf 0xB23456780 = 13 ∧
    rowOf 0xB23456780 = 4660 ∧ populated 0xB23456780 128 = true ∧ populated 0x580000000 1 = false := by decide +kernel
/-- Chapter 6: the slice of the record at 0x4_0000_5000. -/
theorem test_slice : sliceOf 0x400005000 = 2 := by decide +kernel
/-- Chapter 6: three folds of equal maxima (s = 4, 3, 1; o = 2, 1.5, 0.5), and the record finished: o = 0.5, lse ≈ 5.079442. -/
theorem test_merge : let x0 : LseRec := ⟨negInf, 0, 0, 3, 0, true, false, false, 0, 0, 0, 0, [0]⟩;
    let fold := fun (x : LseRec) (s o : F32) => (x.fold ⟨0x40400000, s, [o]⟩).1;
    let x := fold (fold (fold x0 0x40800000 0x40000000) 0x40400000 0x3FC00000) 0x3F800000 0x3F000000;
    x.s = 0x41000000 ∧ x.o = [0x40800000] ∧ x.finalize.1.o = [0x3F000000] ∧ x.finalize.1.lse = 0x40A28AC9 := by
  decide +kernel
/-- Chapter 8: the element histogram's code lengths and table bytes, and the first seven codes of a block. -/
def histogram8 : List Nat := [0, 0, 0, 0, 0, 0, 0, 0, 50, 150, 300, 500, 2000, 10000, 240000, 3590000, 240000, 10000, 2000, 500,
  300, 150, 50, 0, 0, 0, 0, 0, 0, 0, 0, 0]
theorem test_code_table : tableBytes (buildTable histogram8) =
    [0x00, 0x00, 0x00, 0x00, 0xAC, 0x9A, 0x46, 0x12, 0x53, 0x97, 0xBA, 0x0C, 0x00, 0x00, 0x00, 0x00] := by decide +kernel
theorem test_delta_payload : let bits := ([(2, 2), (3, 3), (4, 5), (9, 8), (5, 5), (10, 12), (6, 6)].map fun x =>
      (codeBits (codewords (buildTable histogram8)) 4 x.1 x.2).getD []).flatten;
    bits.length = 14 ∧ (bitsToBytes 2 bits).headD 0 = 0x2C := by decide +kernel
/-- Chapter 12: the detail of the fault of queue 9 (R262), and patch entry 1: SET of bytes 10 and 11 of node 97 by parameter 0. -/
theorem test_delta_fault : (⟨.count, 4, some 4, 0x51000501⟩ : DeltaFault).record = 0x6100000451000501 := by decide +kernel
theorem test_patch : (applyPatch [7, 9] (List.replicate 98 (gap 64)) 0x4A061).getD 97 [] =
    gap 10 ++ [7, 0] ++ gap 52 := by decide +kernel
/-- Chapter 13: the draw at position 151: with u = 0.75 the candidate at place 1. -/
theorem test_draw : drawPlace [0x3F800000, 0x3EBC5AB2, 0x3C960AAE, 0x3B227290] 0x3F666666 0x3F400000 = 1 := by decide +kernel
/-- Chapter 13: record 9,000 of a ring of 4,096 carries stamp 3. -/
theorem test_token_bytes : tokenBytes ⟨0x31A2B, some 40117, 151, 0, 0, 8, 0, 0, none⟩ ((9000 / 4096 + 1) % 256) =
    [0x2B, 0x1A, 3, 0, 0xB5, 0x9C, 0, 0, 151, 0, 0, 0, 0, 0, 8, 0] ++ gap 15 ++ [3] := by decide +kernel
/-- Chapter 14: a codeword with one wrong symbol is corrected (R491). -/
theorem test_fec : rsDecode (List.replicate 543 0 ++ [5]) = some (List.replicate 544 0, 1) := by decide +kernel
/-- Chapter 14: device 0 reaches device 1 by port 0; the PAGE_READ of the example is one whole request. -/
theorem test_page_read : (part .ready).portTo 1 = 0 ∧ parseStream kindReq 64 [0x14, 0x5A, 0, 0, 0, 0, 4, 0, 0x23, 1, 0, 0x2A, 0, 0,
    0, 0, 0x40, 0, 0x30, 0, 8, 8, 0x80, 0, 0, 0, 0x40, 0, 0, 0, 0, 0] = ([], [[0x14, 0x5A, 0, 0, 0, 0, 4, 0, 0x23, 1, 0, 0x2A, 0, 0,
    0, 0, 0x40, 0, 0x30, 0, 8, 8, 0x80, 0, 0, 0, 0x40, 0, 0, 0, 0, 0]], false) := by decide +kernel
/-- Chapter 15: the window of the example, and its malformed doorbell. -/
theorem test_window : let s := { part .ready with pcie := { (part .ready).pcie with windowHi := 8, bar2Log := 34 } };
    s.windowAddress 0x348000000 = 0xB48000000 := by decide +kernel
theorem test_malformed_doorbell : let t := after (.bar0RegisterWrite ⟨0x10091C, [some 1, some 0], false⟩) (part .ready);
    t.pcie.accessErr = true ∧ t.pcie.accessErrOffset = 0x10091C ∧ t.pcie.accessErrBe = 3 ∧ t.pcie.accessErrCount = 1 ∧
    (t.queue 9).tail = 0 ∧ (t.queue 9).doorbellErr = false := by decide +kernel
/-- Chapter 15: one aligned read at 0x10 returns ACCESS_ERR_OFFSET and ACCESS_ERR_BE; PART, STEPPING and DEV_ID (R541). -/
theorem test_control_block_reads : let t := after (.bar0RegisterWrite ⟨0x10091C, [some 1, some 0], false⟩) (part .ready);
    t.bar0Bytes 0x10 8 = [0x1C, 0x09, 0x10, 0, 3, 0, 0, 0] ∧ t.bar0Word 0 = 0x00B14800 := by decide +kernel
/-- Chapter 12: counter 1,003, at 17 with its error bit, reads 0x8000_0000_0000_0011. -/
theorem test_counter_reads : let t := (part .ready).setCounter 1003 ⟨17, true⟩;
    t.bar0Bytes (0x200000 + 32 * 1003) 8 = [0x11, 0, 0, 0, 0, 0, 0, 0x80] := by decide +kernel
/-- Chapter 16: a WRITE of 4 bytes to 0x6000:10, a U16, is answered 0x0A with detail 2. -/
theorem test_size_mismatch : let s := asking (part .ready) 2 0x6000 0x10 [0x28, 0, 0, 0];
    (findEntry 0x6000 0x10).bind (s.writeAbort (s.mailbox.request' 1)) = some (0x0A, 2) := by decide +kernel
/-- Chapter 20: an unpowered device releases its open-drain outputs and reads as not serving (R118, R708). -/
theorem test_unpowered_pins : State.reset.serveOkPin = .released ∧ State.reset.serveOkReads = false ∧
    State.reset.haltNPin = .released := by decide +kernel
/-- Chapter 20, the test access port: IDCODE selects the identification register, which holds 0x1480_0B67. -/
theorem test_idcode : (after .idcode (part .standby)).jtag.selected = tapIdentification ∧ idcode = 0x14800B67 := by decide +kernel

end Sys2Proof.Tests
end

section
/-! SUPPORT. The read of a record through the slices where the hardware finds nothing wrong (R173, R175): what it leaves as it
was. -/

namespace Sys2Proof.Machine

/-! ### The read of a record where nothing goes wrong -/

/-- A read through the slices that met no error: lines come and go, and the slices count in the Ledger. -/
structure CleanRead (s t : State) : Prop where
  frame : t = { s with ledger := t.ledger, cache := t.cache }
  lines : ∀ l ∈ t.cache.lines, l.bad = false
  led : ∀ index sub, index ≠ 0x3400 → sub < 256 → t.led index sub = s.led index sub

/-- The hardware finds nothing wrong in the memory and the slices. -/
structure CleanSlices (hw : Hw) : Prop where
  mem : hw.mem = []
  bad : hw.sliceBad = []
  fixed : hw.sliceFixed = []

theorem CleanRead.refl {s : State} (h : ∀ l ∈ s.cache.lines, l.bad = false) : CleanRead s s :=
  ⟨rfl, h, fun _ _ _ _ => rfl⟩

theorem CleanRead.trans {s t u : State} (h : CleanRead s t) (k : CleanRead t u) : CleanRead s u where
  frame := by rw [k.frame, h.frame]
  lines := k.lines
  led index sub hi hs := (k.led index sub hi hs).trans (h.led index sub hi hs)

theorem sliceOf_lt (a : Nat) : sliceOf a < 2 ^ 4 := by
  have four (n : Nat) : bits a n 4 < 2 ^ 4 := Nat.mod_lt _ (by decide)
  have two (n : Nat) : bits a n 2 < 2 ^ 4 := Nat.lt_trans (Nat.mod_lt _ (by decide : 0 < 2 ^ 2)) (by decide)
  exact Nat.xor_lt_two_pow (Nat.xor_lt_two_pow (Nat.xor_lt_two_pow (Nat.xor_lt_two_pow (Nat.xor_lt_two_pow
    (Nat.xor_lt_two_pow (four _) (four _)) (four _)) (four _)) (four _)) (four _)) (two _)

/-- A slice counts a hit or a miss. -/
theorem CleanRead.bump {s : State} (h : ∀ l ∈ s.cache.lines, l.bad = false) (sub a : Nat) (hsub : sub < 256) :
    CleanRead s (s.bump 0x3400 sub (sliceOf a) 1) where
  frame := rfl
  lines := h
  led index j hi hj := s.led_bump_other 0x3400 sub (sliceOf a) 1 fun e =>
    hi (ledgerKey_eq hj hsub (by decide) (Nat.lt_trans (sliceOf_lt a) (by decide)) e).1

/-- The lines of the slices are replaced by others that hold no error. -/
theorem CleanRead.setCache {s : State} (c : Cache) (h : ∀ l ∈ c.lines, l.bad = false) :
    CleanRead s { s with cache := c } := ⟨rfl, h, fun _ _ _ _ => rfl⟩

theorem State.readErrors_nil (s : State) : s.readErrors [] = s := rfl

theorem badUnits_clean {hw : Hw} (h : CleanSlices hw) (g : Nat) : badUnits hw g = [] := by
  unfold badUnits
  rw [h.bad]
  rfl

theorem State.readLine_clean {hw : Hw} (h : CleanSlices hw) (s : State) (g : Nat) : s.readLine hw g = s := by
  simp only [State.readLine, h.fixed, List.filter_nil, List.length_nil, State.bump, badUnits_clean h, State.loseGranule,
    or_true, if_true]

theorem otherLines_bad {lines : List Line} (h : ∀ l ∈ lines, l.bad = false) (a : Nat) :
    ∀ l ∈ otherLines lines a, l.bad = false := fun l hl => h l (List.mem_filter.mp hl).1

theorem State.evict_clean {hw : Hw} (h : CleanSlices hw) (s : State) (l : Line) (hl : l.bad = false) :
    s.evict hw l = { s with cache := { s.cache with lines := otherLines s.cache.lines l.addr } } := by
  have hgood : ¬ (l.bad = true ∨ badUnits hw (l.addr / 128) ≠ []) := by
    rw [hl, badUnits_clean h]
    exact not_or.mpr ⟨Bool.false_ne_true, fun e => e rfl⟩
  simp only [State.evict, State.readLine_clean h, if_neg hgood, ite_self]

theorem mem_of_victim {lines : List Line} {a : Nat} {l : Line} (h : victim lines a = some l) : l ∈ lines := by
  unfold victim at h
  dsimp only at h
  split at h
  · cases h
  · exact (List.mem_filter.mp (List.mem_of_getLast? h)).1

theorem State.touchLine_clean {hw : Hw} (h : CleanSlices hw) {s : State} (hs : ∀ l ∈ s.cache.lines, l.bad = false)
    (g : Nat) (core : Option (Fin 8)) : CleanRead s (s.touchLine hw g false core).1 := by
  unfold State.touchLine
  cases hheld : s.lineAt g with
  | some old =>
    have hold : old.bad = false := hs old (List.mem_of_find?_eq_some hheld)
    have hbump := CleanRead.bump hs 0x20 (g * 128) (by decide)
    refine hbump.trans ?_
    simp only [State.readLine_clean h]
    refine CleanRead.setCache _ (List.forall_mem_cons.mpr ⟨?_, otherLines_bad hbump.lines (g * 128)⟩)
    show (old.bad || (true && badUnits hw g != [])) = false
    rw [hold, badUnits_clean h]
    rfl
  | none =>
    have hbump := CleanRead.bump hs 0x21 (g * 128) (by decide)
    refine hbump.trans ?_
    simp only [h.mem, List.filter_nil, State.readErrors_nil]
    cases hv : victim (s.bump 0x3400 0x21 (sliceOf (g * 128)) 1).cache.lines (g * 128) with
    | none => exact CleanRead.setCache _ (List.forall_mem_cons.mpr ⟨rfl, otherLines_bad hbump.lines (g * 128)⟩)
    | some l =>
      have hl : l.bad = false := hbump.lines l (mem_of_victim hv)
      simp only [State.evict_clean h _ l hl]
      exact CleanRead.setCache _
        (List.forall_mem_cons.mpr ⟨rfl, otherLines_bad (otherLines_bad hbump.lines l.addr) (g * 128)⟩)

theorem State.touchLines_clean {hw : Hw} (h : CleanSlices hw) (core : Option (Fin 8)) (l : List Nat) {s : State}
    (hs : ∀ l ∈ s.cache.lines, l.bad = false) : CleanRead s (s.touchLines hw false core l).1 := by
  induction l generalizing s with
  | nil => exact .refl hs
  | cons g t ih =>
    have hg := State.touchLine_clean h hs g core
    exact hg.trans (ih hg.lines)

theorem State.load_clean {hw : Hw} (h : CleanSlices hw) {s : State} (hs : ∀ l ∈ s.cache.lines, l.bad = false)
    (a n : Nat) : CleanRead s (s.load hw a n).1 := by
  simp only [State.load, State.access, State.accessGranules, h.mem, List.filter_nil, State.readErrors_nil]
  exact State.touchLines_clean h none _ hs

theorem State.readRecord_clean {x : Issue} (h : CleanSlices x.hw) {s : State}
    (hs : ∀ l ∈ s.cache.lines, l.bad = false) : CleanRead s (s.readRecord x).1 := by
  unfold State.readRecord
  cases x.place with
  | node b i => exact .refl hs
  | ring i =>
    dsimp only
    split
    · exact .refl hs
    · cases s.cacheableAt ((s.queue x.queue).recordAddress i) 64 with
      | none => exact .refl hs
      | some a => exact State.load_clean h hs a 64

end Sys2Proof.Machine
end

section
/-! SUPPORT. What follows a command's work in the Oven (R402, R405, R423, R433): one relation for the registers of its queue,
counters and interrupts, kept by every step of a completion. -/

namespace Sys2Proof.Machine

/-! ### What the Oven's own work leaves as it was -/

/-- Beside the front end, no more than the Ledger, the endpoint, the pending sources of the cores and messages changed. -/
def OvenFrame (s t : State) : Prop :=
  t = { s with ledger := t.ledger, front := t.front, pcie := t.pcie
               cores := { s.cores with sources := t.cores.sources }, out := t.out }

theorem OvenFrame.refl (s : State) : OvenFrame s s := rfl

theorem OvenFrame.trans {s t u : State} (h : OvenFrame s t) (k : OvenFrame t u) : OvenFrame s u := by
  unfold OvenFrame at *
  rw [k, h]

theorem OvenFrame.fuses {s t : State} (h : OvenFrame s t) : t.fuses = s.fuses := by rw [h]

theorem State.bump_ovenFrame (s : State) (index sub elem k : Nat) : OvenFrame s (s.bump index sub elem k) := by
  unfold State.bump
  split <;> rfl

theorem State.msix_ovenFrame (s : State) (v : Nat) : OvenFrame s (s.msix v) := by
  unfold State.msix
  split
  · rfl
  · split <;> rfl

theorem State.interruptCores_ovenFrame (s : State) (n : Nat) : OvenFrame s (s.interruptCores n) := by
  unfold State.interruptCores
  split <;> rfl

theorem State.interruptCores_front (s : State) (n : Nat) : (s.interruptCores n).front = s.front := by
  unfold State.interruptCores
  split <;> rfl

theorem State.msix_front (s : State) (v : Nat) : (s.msix v).front = s.front := by
  unfold State.msix
  split
  · rfl
  · split <;> rfl

theorem State.msix_ledger (s : State) (v : Nat) : (s.msix v).ledger = s.ledger := by
  unfold State.msix
  split
  · rfl
  · split <;> rfl

theorem State.bump_front (s : State) (index sub elem k : Nat) : (s.bump index sub elem k).front = s.front := by
  unfold State.bump
  split <;> rfl

theorem State.interruptCores_ledger (s : State) (n : Nat) : (s.interruptCores n).ledger = s.ledger := by
  unfold State.interruptCores
  split <;> rfl

theorem State.queue_congr {s t : State} (h : t.front.queues = s.front.queues) (q : Nat) : t.queue q = s.queue q := by
  unfold State.queue
  rw [h]

theorem State.work_congr {s t : State} (h : t.front.work = s.front.work) (q : Nat) : t.work q = s.work q := by
  unfold State.work
  rw [h]

theorem State.led_congr {s t : State} (h : t.ledger = s.ledger) (hf : t.fuses = s.fuses) (index sub elem : Nat) :
    t.led index sub elem = s.led index sub elem := by
  unfold State.led State.ledgerDefault
  rw [h, hf]

/-! ### Bookkeeping of a queue -/

/-- What follows a command's own work: its queue's STATE, PROGRESS and COMPLETED, its bakes and the blocks read ahead, and
the counters and interrupts of headers; nothing of another queue, no recipe, and not the fault record of the Ledger. -/
structure Bookkeeping (q : QueueId) (s t : State) : Prop where
  frame : OvenFrame s t
  others : ∀ p : Nat, p ≠ q.val → t.queue p = s.queue p ∧ t.work p = s.work p
  queue : t.queue q = { s.queue q with
    state := (t.queue q).state, progress := (t.queue q).progress, completed := (t.queue q).completed }
  work : t.work q = { s.work q with bakes := (t.work q).bakes, blocks := (t.work q).blocks }
  recipes : t.front.recipes = s.front.recipes
  faultEntry : t.led 0x6000 0x31 = s.led 0x6000 0x31

theorem Bookkeeping.refl (q : QueueId) (s : State) : Bookkeeping q s s :=
  ⟨rfl, fun _ _ => ⟨rfl, rfl⟩, rfl, rfl, rfl, rfl⟩

theorem Bookkeeping.trans {q : QueueId} {s t u : State} (h : Bookkeeping q s t) (k : Bookkeeping q t u) :
    Bookkeeping q s u where
  frame := h.frame.trans k.frame
  others p hp := ⟨(k.others p hp).1.trans (h.others p hp).1, (k.others p hp).2.trans (h.others p hp).2⟩
  queue := by rw [k.queue, h.queue]
  work := by rw [k.work, h.work]
  recipes := k.recipes.trans h.recipes
  faultEntry := k.faultEntry.trans h.faultEntry

section

variable (q : QueueId) (s : State)

theorem Bookkeeping.setQueue (st : QState) (pr co : Word) :
    Bookkeeping q s (s.setQueue q { s.queue q with state := st, progress := pr, completed := co }) where
  frame := rfl
  others p hp := ⟨s.queue_setQueue_other _ hp, rfl⟩
  queue := by rw [State.queue_setQueue_same]
  work := rfl
  recipes := rfl
  faultEntry := rfl

theorem Bookkeeping.setWork (b : List Bake) (l : List ParamBlock) :
    Bookkeeping q s (s.setWork q { s.work q with bakes := b, blocks := l }) where
  frame := rfl
  others p hp := ⟨rfl, s.work_setWork_other _ hp⟩
  queue := rfl
  work := by rw [State.work_setWork_same]
  recipes := rfl
  faultEntry := rfl

/-- Queues, the Oven's work, recipes and the fault entry are as they were. -/
theorem Bookkeeping.of_front {t : State} (h : OvenFrame s t) (hq : t.front.queues = s.front.queues)
    (hw : t.front.work = s.front.work) (hr : t.front.recipes = s.front.recipes)
    (hl : t.led 0x6000 0x31 = s.led 0x6000 0x31) : Bookkeeping q s t where
  frame := h
  others p _ := ⟨State.queue_congr hq p, State.work_congr hw p⟩
  queue := by rw [State.queue_congr hq]
  work := by rw [State.work_congr hw]
  recipes := hr
  faultEntry := hl

/-! ### Completion -/

theorem State.settle_eq (q : Nat) : ∃ st, s.settle q = s.setQueue q { s.queue q with state := st } := ⟨_, rfl⟩

theorem State.yield_eq : ∃ b, s.yield = { s with front := { s.front with sliceOver := b } } := by
  unfold State.yield
  split
  · exact ⟨s.front.sliceOver, rfl⟩
  · exact ⟨true, rfl⟩

theorem State.progress_bookkeeping (k : Nat) : Bookkeeping q s (s.progress q k) :=
  Bookkeeping.setQueue q s (s.queue q).state _ (s.queue q).completed

theorem State.countCompleted_bookkeeping : Bookkeeping q s (s.countCompleted q) :=
  Bookkeeping.setQueue q s (s.queue q).state (s.queue q).progress _

theorem State.settle_bookkeeping : Bookkeeping q s (s.settle q) :=
  Bookkeeping.setQueue q s _ (s.queue q).progress (s.queue q).completed

theorem State.yield_bookkeeping : Bookkeeping q s s.yield := by
  obtain ⟨b, h⟩ := s.yield_eq
  rw [h]
  exact .of_front q s rfl rfl rfl rfl rfl

theorem State.setCounter_bookkeeping (c : Nat) (k : Counter) : Bookkeeping q s (s.setCounter c k) :=
  .of_front q s rfl rfl rfl rfl rfl

/-- A header's interrupt (R450, R552). -/
theorem State.interrupt_bookkeeping (n v : Nat) : Bookkeeping q s ((s.interruptCores n).msix v) := by
  have h : OvenFrame s ((s.interruptCores n).msix v) := (s.interruptCores_ovenFrame n).trans (State.msix_ovenFrame _ v)
  have hfront : ((s.interruptCores n).msix v).front = s.front := by
    rw [State.msix_front, State.interruptCores_front]
  have hledger : ((s.interruptCores n).msix v).ledger = s.ledger := by
    rw [State.msix_ledger, State.interruptCores_ledger]
  exact .of_front q s h (by rw [hfront]) (by rw [hfront]) (by rw [hfront]) (State.led_congr hledger h.fuses _ _ _)

theorem State.signal_bookkeeping (p : Nat) (h : Header) (failed : Bool) : Bookkeeping q s (s.signal p h failed) := by
  have hc : Bookkeeping q s (if h.enable then
      (if failed then s.errCounter h.counter.toNat else s.advanceCounter h.counter.toNat 1) else s) := by
    split
    · split
      · exact s.setCounter_bookkeeping q _ _
      · exact s.setCounter_bookkeeping q _ _
    · exact .refl q s
  unfold State.signal
  dsimp only
  split
  · exact hc.trans (State.interrupt_bookkeeping q _ _ _)
  · exact hc

theorem State.bump_bookkeeping (sub : Nat) (hs : sub < 256) (h : sub ≠ 0x31) :
    Bookkeeping q s (s.bump 0x6000 sub q 1) := by
  have hfront := s.bump_front 0x6000 sub q 1
  refine .of_front q s (s.bump_ovenFrame _ _ _ _) (by rw [hfront]) (by rw [hfront]) (by rw [hfront])
    (s.led_bump_other _ _ _ _ fun e => h ?_)
  exact (ledgerKey_eq (by decide) hs (by decide) (by omega) e).2.1.symm

theorem State.endBake_bookkeeping (b : Bake) : Bookkeeping q s (s.endBake q b) := by
  unfold State.endBake
  split
  · have hw := Bookkeeping.setWork q s ((s.work q).bakes.filter fun x => x.number != b.number) (s.work q).blocks
    have hp (t : State) : Bookkeeping q t (if b.wake then t else t.progress q 1) := by
      split
      · exact .refl q t
      · exact t.progress_bookkeeping q 1
    exact (hw.trans (hp _)).trans (((State.countCompleted_bookkeeping q _).trans
      (State.bump_bookkeeping q _ 0x33 (by decide) (by decide))).trans (State.signal_bookkeeping q _ _ _ _))
  · exact .refl q s

theorem State.finish_bookkeeping (place : Place) (h : Header) : Bookkeeping q s (s.finish q place h) := by
  have hp := (s.progress_bookkeeping q 1).trans (State.signal_bookkeeping q _ q h false)
  cases place with
  | ring i => exact hp.trans ((State.countCompleted_bookkeeping q _).trans (State.settle_bookkeeping q _))
  | node n i =>
    refine hp.trans ?_
    dsimp only [State.finish]
    generalize (s.progress q 1).signal q h = t
    cases (t.work q).bake? n with
    | none => exact t.settle_bookkeeping q
    | some b =>
      exact ((Bookkeeping.setWork q t _ (t.work q).blocks).trans (State.endBake_bookkeeping q _ _)).trans
        (State.settle_bookkeeping q _)

end

end Sys2Proof.Machine
end

section
/-! SUPPORT. The issue of a record that a queue offers (R402, R406, R411, R431): the state in which the Oven works on it, and how
an issue goes on where its checks pass and where one fails. -/

namespace Sys2Proof.Machine

/-! ### The record leaves its place -/

section

variable (q : QueueId) (s : State)

theorem State.take_ovenFrame (place : Place) : OvenFrame s (s.take q place) := by
  cases place with
  | ring i => rfl
  | node n i =>
    unfold State.take
    dsimp only
    split <;> rfl

theorem State.take_queue_other (place : Place) {p : Nat} (h : p ≠ q.val) : (s.take q place).queue p = s.queue p := by
  cases place with
  | ring i => exact State.queue_setQueue_other _ _ h
  | node n i =>
    unfold State.take
    dsimp only
    split <;> rfl

theorem State.take_work_other (place : Place) {p : Nat} (h : p ≠ q.val) : (s.take q place).work p = s.work p := by
  cases place with
  | ring i => exact State.work_setWork_other _ _ h
  | node n i =>
    unfold State.take
    dsimp only
    split
    · exact State.work_setWork_other _ _ h
    · rfl

/-- Of a queue's registers, an issue changes HEAD alone (R402). -/
theorem State.take_queue_same (place : Place) :
    (s.take q place).queue q = { s.queue q with head := ((s.take q place).queue q).head } := by
  cases place with
  | ring i =>
    have h : (s.take q (.ring i)).queue q = { s.queue q with head := (s.queue q).head + 1 } :=
      State.queue_setQueue_same _ _ _
    rw [h]
  | node n i =>
    unfold State.take
    dsimp only
    split <;> rfl

theorem State.take_ring_head (i : Nat) : ((s.take q (.ring i)).queue q).head = (s.queue q).head + 1 :=
  congrArg Queue.head (State.queue_setQueue_same (s.giveTurn q) q { s.queue q with head := (s.queue q).head + 1 })

/-- Of what the Oven keeps of a queue, an issue changes submissions, blocks and bakes alone. -/
theorem State.take_work_same (place : Place) :
    (s.take q place).work q = { s.work q with
      submissions := ((s.take q place).work q).submissions, blocks := ((s.take q place).work q).blocks
      bakes := ((s.take q place).work q).bakes } := by
  cases place with
  | ring i =>
    unfold State.take
    dsimp only
    rw [State.work_setWork_same]
    rfl
  | node n i =>
    unfold State.take
    dsimp only
    split
    · rw [State.work_setWork_same]
      rfl
    · rfl

theorem State.take_ring_bakes (i : Nat) : ((s.take q (.ring i)).work q).bakes = (s.work q).bakes := by
  unfold State.take
  dsimp only
  rw [State.work_setWork_same]
  rfl

theorem State.take_front (place : Place) :
    (s.take q place).front.recipes = s.front.recipes ∧ (s.take q place).front.counters = s.front.counters := by
  cases place with
  | ring i => exact ⟨rfl, rfl⟩
  | node n i =>
    unfold State.take
    dsimp only
    split <;> exact ⟨rfl, rfl⟩

theorem State.take_ledger (place : Place) : (s.take q place).ledger = s.ledger := by
  cases place with
  | ring i => rfl
  | node n i =>
    unfold State.take
    dsimp only
    split <;> rfl

end

/-! ### The queue that is served -/

/-- The queue whose turn it is is runnable (R431). -/
theorem State.runnable_of_turn {s : State} {q : Nat} (h : s.turn = some q) : s.runnable q = true := by
  unfold State.turn at h
  dsimp only at h
  split at h
  · next hr =>
    simp only [Bool.and_eq_true] at hr
    exact Option.some.inj h ▸ hr.1
  · exact List.find?_some h

/-- A queue that is RESETTING or FAULTED is not runnable (R431). -/
theorem State.state_of_runnable {s : State} {q : Nat} (h : s.runnable q = true) :
    (s.queue q).state ≠ .resetting ∧ (s.queue q).state ≠ .faulted := by
  simp only [State.runnable, Bool.and_eq_true, bne_iff_ne, ne_eq] at h
  obtain ⟨⟨⟨⟨-, hr⟩, hf⟩, -⟩, -⟩ := h
  exact ⟨hr, hf⟩

/-- A record is fetched for the queue whose turn it is, and the host's answers are all that it takes of what the hardware
meets. -/
theorem State.fetch_eq_record {s : State} {x : Issue} {r : List Byte} {hw : Hw} (h : s.fetch x = .record r hw) :
    s.turn = some x.queue.val ∧ hw = { x.hw with host := hw.host } := by
  unfold State.fetch at h
  split at h
  · next ht =>
    refine ⟨ht.2, ?_⟩
    dsimp only at h
    repeat' split at h
    all_goals cases h
    all_goals rfl
  · cases h

/-! ### The issue of a record that is offered -/

/-- The state in which the Oven works on a command's record: the record has been read and has left its place (R402, R406). -/
def State.taken (s : State) (x : Issue) : State := (s.readRecord x).1.take x.queue x.place

/-- What `Safety.offers` gives: a clean read, a queue that runs, and no error to meet. -/
structure Offered (s : State) (x : Issue) (hw : Hw) : Prop where
  read : CleanRead s (s.readRecord x).1
  runs : (s.queue x.queue).state ≠ .resetting ∧ (s.queue x.queue).state ≠ .faulted
  meet : ∀ t : State, t.meet hw = t

theorem State.meet_clean {hw : Hw} (h : Safety.clean hw) (t : State) : t.meet hw = t := by
  obtain ⟨-, hbad, hfixed, -, -, hflits⟩ := h
  simp only [State.meet, State.countFlits, hbad, hfixed, hflits, List.foldl_nil]

section

variable {x : Issue} {opcode : Nat} {spells : List Byte → Prop} {s : State} {r : List Byte} {hw : Hw}

theorem Offered.of_offers (h : Safety.offers s x opcode spells r hw) : Offered s x hw := by
  obtain ⟨hfetch, -, ⟨-, hlines⟩, -, -, -, -, -, hclean⟩ := h
  obtain ⟨hturn, hhw⟩ := State.fetch_eq_record hfetch
  obtain ⟨hmem, -, -, hbad, hfixed, -⟩ := id hclean
  rw [hhw] at hmem hbad hfixed
  exact ⟨State.readRecord_clean ⟨hmem, hbad, hfixed⟩ hlines, State.state_of_runnable (State.runnable_of_turn hturn),
    State.meet_clean hclean⟩

/-- A record that is offered and fails a check is a fault of its queue (R411, R435). -/
theorem State.issue_refused (h : Safety.offers s x opcode spells r hw) {read : List Byte → Bool}
    (hread : ∀ r, spells r → read r = true) {check : State → List Byte → Option QFault} {f : QFault}
    (hf : check s r = some f) (run : Hw → State → Done) :
    s.issue x opcode read check run = (s.taken x).faultAt x.queue x.place opcode f := by
  have hmeet := (Offered.of_offers h).meet
  obtain ⟨hfetch, hwhole, -, hknown, hop, hheader, hspells, -, -⟩ := h
  simp only [State.issue, hfetch, hwhole, Bool.not_true, Bool.false_eq_true, if_false, hknown, hop, hheader, hread r hspells,
    and_self, if_true, hf, hmeet, State.taken]

/-- A record of the Oven that is offered and passes every check is worked on, and its issue concluded (R406). -/
theorem State.issue_accepted (h : Safety.offers s x opcode spells r hw) {read : List Byte → Bool}
    (hread : ∀ r, spells r → read r = true) {check : State → List Byte → Option QFault} (hc : check s r = none)
    (hoven : opcode < 0x10) (run : Hw → State → Done) :
    s.issue x opcode read check run = State.conclude x opcode (run hw (s.taken x)) := by
  have hmeet := (Offered.of_offers h).meet
  obtain ⟨hfetch, hwhole, -, hknown, hop, hheader, hspells, -, -⟩ := h
  simp only [State.issue, hfetch, hwhole, Bool.not_true, Bool.false_eq_true, if_false, hknown, hop, hheader, hread r hspells,
    and_self, if_true, hc, if_pos hoven, hmeet, State.taken]

end

/-! ### The state that the Oven works in -/

section

variable {s : State} {x : Issue} {hw : Hw} (h : Offered s x hw)

include h

theorem Offered.front : (s.readRecord x).1.front = s.front := by rw [h.read.frame]

theorem Offered.read_queue (q : Nat) : (s.readRecord x).1.queue q = s.queue q :=
  State.queue_congr (by rw [h.front]) q

theorem Offered.read_work (q : Nat) : (s.readRecord x).1.work q = s.work q := State.work_congr (by rw [h.front]) q

theorem Offered.taken_queue_other {p : Nat} (hp : p ≠ x.queue.val) : (s.taken x).queue p = s.queue p :=
  (State.take_queue_other _ _ _ hp).trans (h.read_queue p)

theorem Offered.taken_work_other {p : Nat} (hp : p ≠ x.queue.val) : (s.taken x).work p = s.work p :=
  (State.take_work_other _ _ _ hp).trans (h.read_work p)

theorem Offered.taken_queue :
    (s.taken x).queue x.queue = { s.queue x.queue with head := ((s.taken x).queue x.queue).head } := by
  refine (State.take_queue_same _ _ _).trans ?_
  rw [h.read_queue]
  rfl

theorem Offered.taken_work :
    (s.taken x).work x.queue = { s.work x.queue with
      submissions := ((s.taken x).work x.queue).submissions, blocks := ((s.taken x).work x.queue).blocks
      bakes := ((s.taken x).work x.queue).bakes } := by
  refine (State.take_work_same _ _ _).trans ?_
  rw [h.read_work]
  rfl

theorem Offered.taken_bakes {i : Nat} (hi : x.place = .ring i) :
    ((s.taken x).work x.queue).bakes = (s.work x.queue).bakes := by
  unfold State.taken
  rw [hi, State.take_ring_bakes, h.read_work]

theorem Offered.taken_recipe (id : Nat) : (s.taken x).recipe id = s.recipe id := by
  have hr : (s.taken x).front.recipes = s.front.recipes := (State.take_front _ _ _).1.trans (by rw [h.front])
  unfold State.recipe
  rw [hr]

theorem Offered.taken_counter (c : Nat) : (s.taken x).counter c = s.counter c := by
  have hr : (s.taken x).front.counters = s.front.counters := (State.take_front _ _ _).2.trans (by rw [h.front])
  unfold State.counter
  rw [hr]

theorem Offered.taken_faultEntry : (s.taken x).led 0x6000 0x31 = s.led 0x6000 0x31 :=
  (State.led_congr (State.take_ledger _ _ _) (State.take_ovenFrame _ _ _).fuses _ _ _).trans
    (h.read.led _ _ (by decide) (by decide))

theorem Offered.taken_runs :
    ((s.taken x).queue x.queue).state ≠ .resetting ∧ ((s.taken x).queue x.queue).state ≠ .faulted := by
  rw [h.taken_queue]
  exact h.runs

theorem Offered.taken_leftRing : Safety.leftRing s (s.taken x) x := by
  intro i hi
  unfold State.taken
  rw [hi, State.take_ring_head, h.read_queue]

/-- After the read of the record and its issue, work of the Oven changes nothing but what `OvenFrame` names. -/
theorem Offered.eq_of_ovenFrame {t : State} (k : OvenFrame (s.taken x) t) :
    t = { s with ledger := t.ledger, cache := (s.readRecord x).1.cache, front := t.front, pcie := t.pcie
                 cores := { s.cores with sources := t.cores.sources }, out := t.out } := by
  have ht := (State.take_ovenFrame x.queue (s.readRecord x).1 x.place).trans k
  unfold OvenFrame at ht
  rw [ht, h.read.frame]

theorem Offered.onlyFetched {t : State} (k : OvenFrame (s.taken x) t) : Safety.onlyFetched s t x := by
  rw [h.eq_of_ovenFrame k]; simp only [Safety.onlyFetched, and_self]

theorem Offered.sameUnits {t : State} (k : OvenFrame (s.taken x) t) : Safety.sameUnits s t := by
  rw [h.eq_of_ovenFrame k]; simp only [Safety.sameUnits, and_self]

/-- Work of the Oven that leaves HEAD where the issue put it. -/
theorem Offered.actsInOven {t : State} (k : OvenFrame (s.taken x) t)
    (hhead : (t.queue x.queue).head = ((s.taken x).queue x.queue).head) : Safety.actsInOven s t x := by
  have hring : Safety.leftRing s t x := fun i hi => hhead.trans (h.taken_leftRing i hi)
  refine ⟨⟨?_, ?_, hring⟩, h.onlyFetched k, h.sameUnits k, ?_⟩
  · rw [h.eq_of_ovenFrame k]; simp only [Safety.sameDevice, and_self]
  · rw [h.eq_of_ovenFrame k]; simp only [Safety.sameServing, and_self]
  · rw [h.eq_of_ovenFrame k]; simp only [Safety.samePorts, and_self]

end

end Sys2Proof.Machine
end

section
/-! SUPPORT. Queue faults (R435, R436, R440), refused records, and commands that end at once. -/

namespace Sys2Proof.Machine

/-! ### A queue fault -/

/-- A fault is noted in the Ledger alone. -/
theorem State.noteFault_ovenFrame (s : State) (opcode : Nat) (f : QFault) :
    OvenFrame s (s.noteFault opcode f) ∧ (s.noteFault opcode f).front = s.front := by
  unfold State.noteFault
  repeat' split
  all_goals exact ⟨rfl, rfl⟩

/-- A fault in a queue that is RESETTING or FAULTED is not recorded again (R440). -/
theorem State.faultQueue_again {s : State} {q : Nat} (h : (s.queue q).state = .resetting ∨ (s.queue q).state = .faulted)
    (opcode recipe node position : Nat) (f : QFault) : s.faultQueue q opcode recipe node position f = s := if_pos h

/-- The fault of a queue that runs (R435, R436): the queue is RESETTING, its record names opcode and cause, and no other queue
nor anything that the Oven keeps of a queue changes. -/
structure FaultRecorded (q opcode cause : Nat) (s t : State) : Prop where
  frame : OvenFrame s t
  queue : ∃ r, r.take 2 = [byte cause, byte opcode] ∧
    t.queue q = { s.queue q with state := .resetting, faultRecord := r }
  others : ∀ p, p ≠ q → t.queue p = s.queue p
  work : ∀ p, t.work p = s.work p

theorem State.faultQueue_records {s : State} {q : Nat}
    (h : (s.queue q).state ≠ .resetting ∧ (s.queue q).state ≠ .faulted) (opcode recipe node position : Nat) (f : QFault) :
    FaultRecorded q opcode f.cause s (s.faultQueue q opcode recipe node position f) := by
  obtain ⟨hframe, hfront⟩ := s.noteFault_ovenFrame opcode f
  unfold State.faultQueue
  rw [if_neg (not_or.mpr h)]
  generalize hr : faultRecord q opcode recipe node position f = r
  dsimp only
  generalize s.noteFault opcode f = n at hframe hfront
  obtain ⟨b, hy⟩ := ((n.setQueue q { s.queue q with state := .resetting, faultRecord := r }).setLed 0x6000 0x31 0
    (ofBytes r)).yield_eq
  rw [hy]
  refine ⟨hframe.trans rfl, ⟨r, hr ▸ rfl, n.queue_setQueue_same q _⟩, fun p hp => ?_, fun p => ?_⟩
  · exact (n.queue_setQueue_other _ hp).trans (State.queue_congr (by rw [hfront]) p)
  · exact State.work_congr (t := n) (by rw [hfront]) p

/-- A record that was refused (R411, R435): its queue is RESETTING with its fault, every other queue is as it was, and the
Oven has gone no further with the record than its issue. -/
structure Refused (s t : State) (x : Issue) (opcode cause : Nat) : Prop where
  faulted : Safety.faulted t x opcode cause
  others : ∀ q : QueueId, q ≠ x.queue → t.queue q = s.queue q ∧ t.work q = s.work q
  work : t.work x.queue = (s.taken x).work x.queue
  acts : Safety.actsInOven s t x

theorem Offered.faultAt_refused {s : State} {x : Issue} {hw : Hw} (h : Offered s x hw) (opcode : Nat) (f : QFault) :
    Refused s ((s.taken x).faultAt x.queue x.place opcode f) x opcode f.cause := by
  have k : FaultRecorded x.queue opcode f.cause (s.taken x) ((s.taken x).faultAt x.queue x.place opcode f) :=
    State.faultQueue_records h.taken_runs opcode _ _ _ f
  obtain ⟨r, hr, hq⟩ := k.queue
  have hstate : Safety.faulted ((s.taken x).faultAt x.queue x.place opcode f) x opcode f.cause := by
    unfold Safety.faulted
    rw [hq]
    exact ⟨rfl, hr⟩
  refine ⟨hstate, fun q hne => ?_, k.work _, h.actsInOven k.frame (by rw [hq])⟩
  have hval : q.val ≠ x.queue.val := fun e => hne (Fin.ext e)
  exact ⟨(k.others q hval).trans (h.taken_queue_other hval), (k.work q).trans (h.taken_work_other hval)⟩

/-- A record that is offered and fails a check is refused. -/
theorem State.issue_refused_spec {s : State} {x : Issue} {opcode : Nat} {spells : List Byte → Prop} {r : List Byte} {hw : Hw}
    (h : Safety.offers s x opcode spells r hw) {read : List Byte → Bool} (hread : ∀ r, spells r → read r = true)
    {check : State → List Byte → Option QFault} {f : QFault} (hf : check s r = some f) (run : Hw → State → Done) :
    Refused s (s.issue x opcode read check run) x opcode f.cause := by
  rw [State.issue_refused h hread hf]
  exact (Offered.of_offers h).faultAt_refused opcode f

/-! ### Checks -/

theorem firstFault_nil : firstFault [] = none := rfl
theorem firstFault_none (l : List (Option QFault)) : firstFault (none :: l) = firstFault l := rfl
theorem firstFault_some (f : QFault) (l : List (Option QFault)) : firstFault (some f :: l) = some f := rfl
theorem failUnless_true (f : QFault) : failUnless true f = none := rfl
theorem failUnless_false (f : QFault) : failUnless false f = some f := rfl

/-! ### A command that ends at once -/

/-- What follows a command of the Oven that ended at once. -/
theorem State.conclude_now_bookkeeping (x : Issue) (opcode : Nat) (t : State) :
    Bookkeeping x.queue t (State.conclude x opcode (.ok t .now)) := by
  have hp : Bookkeeping x.queue t (if opcode < 0x10 then t.progress x.queue 1 else t) := by
    split
    · exact t.progress_bookkeeping x.queue 1
    · exact .refl _ t
  exact hp.trans ((State.finish_bookkeeping x.queue _ x.place x.header).trans (State.yield_bookkeeping x.queue _))

theorem Bookkeeping.head {q : QueueId} {s t : State} (h : Bookkeeping q s t) : (t.queue q).head = (s.queue q).head := by
  rw [h.queue]

/-- Every queue after the bookkeeping of one. -/
theorem Bookkeeping.queue_eq {q : QueueId} {s t : State} (h : Bookkeeping q s t) (p : Nat) :
    ∃ st pr co, t.queue p = { s.queue p with state := st, progress := pr, completed := co } := by
  by_cases hp : p = q.val
  · rw [hp]
    exact ⟨_, _, _, h.queue⟩
  · exact ⟨_, _, _, (h.others p hp).1⟩

/-- Every queue after the issue of a record. -/
theorem Offered.taken_queue_eq {s : State} {x : Issue} {hw : Hw} (h : Offered s x hw) (p : Nat) :
    ∃ hd, (s.taken x).queue p = { s.queue p with head := hd } := by
  by_cases hp : p = x.queue.val
  · rw [hp]
    exact ⟨_, h.taken_queue⟩
  · exact ⟨_, h.taken_queue_other hp⟩

end Sys2Proof.Machine
end

section
/-! PROOFS. RING, RECIPE_DROP, BAKE, WAIT and QUEUE_CTL at their edges (R427, R440, R441, R443, R446): O58 and O59. -/

namespace Sys2Proof.Machine

/-! ### RING -/

theorem State.addWakes_ovenFrame (s : State) (q n : Nat) : OvenFrame s (s.addWakes q n) := rfl

/-- A RING of a parked queue (R427): its wakes, and else the bookkeeping of the issuing queue. -/
theorem ring_parked {x : Issue} {o : RingOps} {s : State} {r : List Byte} {hw : Hw}
    (h : Safety.offers s x 0x07 (fun r => readRing r = o) r hw)
    (hc : s.headerCheck x.queue 0x07 x.header (noCells x.header) (isKernel o.target.toNat) = none)
    (ht : o.target.toNat < 64) (hn : 1 ≤ o.wakes.toNat) (hp : s.parked o.target.toNat = true) :
    ∃ t, exec (.ring x o) s = .next t ∧
      Bookkeeping x.queue ((s.taken x).addWakes o.target.toNat o.wakes.toNat) t := by
  refine ⟨_, rfl, ?_⟩
  rw [State.issue_accepted h (fun r hr => decide_eq_true hr)
    (by simp only [hc, ht, hn, hp, decide_true, failUnless_true, firstFault_none, firstFault_nil]) (by decide)]
  exact State.conclude_now_bookkeeping x 0x07 _

/-- A RING of a queue that is not parked (R427). -/
theorem ring_notParked {x : Issue} {o : RingOps} {s : State} {r : List Byte} {hw : Hw}
    (h : Safety.offers s x 0x07 (fun r => readRing r = o) r hw)
    (hc : s.headerCheck x.queue 0x07 x.header (noCells x.header) (isKernel o.target.toNat) = none)
    (ht : o.target.toNat < 64) (hn : 1 ≤ o.wakes.toNat) (hp : s.parked o.target.toNat = false) :
    ∃ t, exec (.ring x o) s = .next t ∧ Refused s t x 0x07 badTarget := by
  refine ⟨_, rfl, ?_⟩
  exact State.issue_refused_spec h (f := ovenFault badTarget o.target.toNat) (fun r hr => decide_eq_true hr)
    (by simp only [hc, ht, hn, hp, decide_true, failUnless_true, failUnless_false, firstFault_none, firstFault_some]) _

/-- The wakes that a RING adds, and the target's other registers (R427). -/
theorem Offered.addWakes_target {s t : State} {x : Issue} {hw : Hw} (h : Offered s x hw) (q n : Nat)
    (hbook : Bookkeeping x.queue ((s.taken x).addWakes q n) t) :
    (t.queue q).wakes = BitVec.ofNat 32 (min (2 ^ 32 - 1) ((s.queue q).wakes.toNat + n)) ∧
      Safety.sameSettings (s.queue q) (t.queue q) := by
  obtain ⟨hd, htaken⟩ := h.taken_queue_eq q
  have hadd : ((s.taken x).addWakes q n).queue q = { s.queue q with
      head := hd, wakes := BitVec.ofNat 32 (min (2 ^ 32 - 1) ((s.queue q).wakes.toNat + n)) } := by
    simp only [State.addWakes, htaken, State.queue_setQueue_same]
  obtain ⟨st, pr, co, ht⟩ := hbook.queue_eq q
  rw [ht, hadd]
  simp only [Safety.sameSettings, and_self]

/-- The wakes of a RING leave HEAD of every queue. -/
theorem State.addWakes_head (s : State) (q n p : Nat) : ((s.addWakes q n).queue p).head = (s.queue p).head := by
  unfold State.addWakes
  by_cases hp : p = q
  · rw [hp, State.queue_setQueue_same]
  · rw [State.queue_setQueue_other _ _ hp]

/-! ### RECIPE_DROP and BAKE of a recipe that is not loaded -/

/-- The recipe store without one id. -/
def State.dropRecipe (s : State) (id : Nat) : State :=
  { s with front := { s.front with recipes := s.front.recipes.erase id } }

/-- Dropping an id that is not loaded changes no recipe (R446). -/
theorem State.recipe_dropRecipe {s : State} {n : Nat} (h : s.recipe n = none) (id : Nat) :
    (s.dropRecipe n).recipe id = s.recipe id := by
  by_cases hid : id = n
  · rw [hid, h]
    exact Sparse.get_erase_same _ _ _
  · exact Sparse.get_erase_other _ _ hid

theorem recipeDrop_bookkeeping {x : Issue} {recipe : Half} {s : State} {r : List Byte} {hw : Hw}
    (h : Safety.offers s x 0x0A (fun r => rec16 r 8 = recipe) r hw)
    (hc : s.headerCheck x.queue 0x0A x.header (noCells x.header) false = none) (hr : recipe.toNat < 1024) :
    ∃ t, exec (.recipeDrop x recipe) s = .next t ∧ Bookkeeping x.queue ((s.taken x).dropRecipe recipe.toNat) t := by
  refine ⟨_, rfl, ?_⟩
  rw [State.issue_accepted h (fun r hr => decide_eq_true hr)
    (by simp only [hc, hr, decide_true, failUnless_true, firstFault_none, firstFault_nil]) (by decide)]
  exact State.conclude_now_bookkeeping x 0x0A _

/-- A BAKE of a recipe that is not loaded fails its last check (R411, R446). -/
theorem State.bakeCheck_notLoaded {s : State} {x : Issue} {o : BakeOps}
    (hc : s.headerCheck x.queue 0x05 x.header (noCells x.header) (s.kernelRecipe o.recipe.toNat) = none)
    (hr : o.recipe.toNat < 1024) (hn : o.count.toNat ≤ 64) (hzero : o.count = 0 → o.params.toNat % 8 = 0)
    (hparams : o.count ≠ 0 → s.cacheFault o.params.toNat (8 * o.count.toNat) 8 = none)
    (hnone : s.recipe o.recipe.toNat = none) : s.bakeCheck x o = some (ovenFault badRecipe 0) := by
  have hfault : s.recipeFault o.recipe.toNat o.count.toNat = some (ovenFault badRecipe 0) := by
    simp only [State.recipeFault, hnone]
  by_cases h0 : o.count = 0
  · simp only [State.bakeCheck, hc, hr, hn, hfault, if_pos h0, hzero h0, decide_true, failUnless_true, firstFault_none,
      firstFault_some]
  · simp only [State.bakeCheck, hc, hr, hn, hfault, if_neg h0, hparams h0, decide_true, failUnless_true, firstFault_none,
      firstFault_some]

/-- A BAKE that its checks refuse. -/
theorem bake_refused {x : Issue} {o : BakeOps} {s : State} {r : List Byte} {hw : Hw}
    (h : Safety.offers s x 0x05 (fun r => readBake r = o) r hw) {f : QFault} (hf : s.bakeCheck x o = some f) :
    ∃ t, exec (.bake x o) s = .next t ∧ Refused s t x 0x05 f.cause := by
  refine ⟨_, rfl, ?_⟩
  exact State.issue_refused_spec h (fun r hr => decide_eq_true hr) hf _

/-! ### WAIT -/

/-- Work that leaves what a queue keeps of its WAITs, and COMPLETED. -/
structure WaitFrame (q : QueueId) (s t : State) : Prop where
  frame : OvenFrame s t
  waits : (t.work q).waits = (s.work q).waits
  waitErr : (t.queue q).waitErr = (s.queue q).waitErr
  completed : (t.queue q).completed = (s.queue q).completed

section

variable {q : QueueId} {s t u : State}

theorem WaitFrame.refl (q : QueueId) (s : State) : WaitFrame q s s := ⟨rfl, rfl, rfl, rfl⟩

theorem WaitFrame.trans (h : WaitFrame q s t) (k : WaitFrame q t u) : WaitFrame q s u :=
  ⟨h.frame.trans k.frame, k.waits.trans h.waits, k.waitErr.trans h.waitErr, k.completed.trans h.completed⟩

theorem Bookkeeping.waits (h : Bookkeeping q s t) : (t.work q).waits = (s.work q).waits := by rw [h.work]

theorem Bookkeeping.waitErr (h : Bookkeeping q s t) : (t.queue q).waitErr = (s.queue q).waitErr := by rw [h.queue]

/-- Bookkeeping that counts no completion. -/
theorem Bookkeeping.waitFrame (h : Bookkeeping q s t) (hc : (t.queue q).completed = (s.queue q).completed) :
    WaitFrame q s t := ⟨h.frame, h.waits, h.waitErr, hc⟩

end

section

variable (q : QueueId) (s : State)

theorem State.progress_waitFrame (k : Nat) : WaitFrame q s (s.progress q k) :=
  (s.progress_bookkeeping q k).waitFrame (by simp only [State.progress, State.queue_setQueue_same])

theorem State.settle_waitFrame : WaitFrame q s (s.settle q) := by
  refine (s.settle_bookkeeping q).waitFrame ?_
  obtain ⟨st, h⟩ := s.settle_eq q
  rw [h, State.queue_setQueue_same]

theorem State.yield_waitFrame : WaitFrame q s s.yield := by
  refine (s.yield_bookkeeping q).waitFrame ?_
  obtain ⟨b, h⟩ := s.yield_eq
  rw [h]
  rfl

theorem State.signal_queue (p : Nat) (h : Header) (failed : Bool) : (s.signal p h failed).queue q = s.queue q := by
  have hc : (if h.enable then
      (if failed then s.errCounter h.counter.toNat else s.advanceCounter h.counter.toNat 1) else s).front.queues =
        s.front.queues := by
    split
    · split <;> rfl
    · rfl
  refine State.queue_congr ?_ q
  unfold State.signal
  dsimp only
  split
  · rw [State.msix_front, State.interruptCores_front, hc]
  · exact hc

/-- A record of the ring that completes is counted (R402). -/
theorem State.finish_ring_completed (i : Nat) (h : Header) :
    ((s.finish q (.ring i) h).queue q).completed = advanceCnt (s.queue q).completed 1 := by
  have hs := (State.settle_waitFrame q (((s.progress q 1).signal q h).countCompleted q)).completed
  refine hs.trans ?_
  simp only [State.countCompleted, State.signal_queue, State.progress, State.queue_setQueue_same]

/-- Discarded records set error bits of counters, and nothing else (R418). -/
theorem State.discards_eq {α : Type} (g : α → List Byte) (l : List α) (s : State) :
    ∃ c, l.foldl (fun s a => s.discard (g a)) s = { s with front := { s.front with counters := c } } := by
  induction l generalizing s with
  | nil => exact ⟨s.front.counters, rfl⟩
  | cons a l ih =>
    obtain ⟨c, hc⟩ : ∃ c, s.discard (g a) = { s with front := { s.front with counters := c } } := by
      unfold State.discard
      dsimp only
      split
      · exact ⟨_, rfl⟩
      · exact ⟨s.front.counters, rfl⟩
    obtain ⟨c', hc'⟩ := ih (s.discard (g a))
    refine ⟨c', ?_⟩
    rw [List.foldl_cons, hc', hc]

theorem State.cancelRing_waitFrame (host : List HostReply) : WaitFrame q s (s.cancelRing q host) := by
  unfold State.cancelRing
  dsimp only
  generalize s.ringRecords q host _ _ = l
  obtain ⟨c, hc⟩ := State.discards_eq id l s
  rw [show l.foldl State.discard s = _ from hc]
  refine ⟨rfl, rfl, ?_, ?_⟩
  · rw [State.queue_setQueue_same]
    rfl
  · rw [State.queue_setQueue_same]
    rfl

theorem State.cancelBake_waitFrame (n : Nat) : WaitFrame q s (s.cancelBake q n) := by
  unfold State.cancelBake
  cases (s.work q).bake? n with
  | none => exact .refl q s
  | some b =>
    dsimp only
    generalize (b.records.zip b.nodes).filter (fun x => x.2 == .unissued) = l
    obtain ⟨c, hc⟩ := State.discards_eq Prod.fst l s
    rw [hc]
    refine ⟨rfl, ?_, rfl, rfl⟩
    rw [State.work_setWork_same]
    rfl

theorem State.readParams_waitFrame (i : Nat) (r : List Byte) : WaitFrame q s (s.readParams q i r) := by
  unfold State.readParams
  dsimp only
  split
  · refine ⟨rfl, ?_, rfl, rfl⟩
    rw [State.work_setWork_same]
  · exact .refl q s

theorem State.readBlocks_waitFrame (l : List Nat) : WaitFrame q s (State.readBlocks q l s) := by
  induction l generalizing s with
  | nil => exact .refl q s
  | cons i l ih =>
    unfold State.readBlocks
    cases (s.cacheableAt ((s.queue q).recordAddress i) 64).map fun a => s.memRead a 64 with
    | none => exact .refl q s
    | some r =>
      dsimp only
      split
      · exact .refl q s
      · refine WaitFrame.trans ?_ (ih _)
        split
        · exact s.readParams_waitFrame q i r
        · exact .refl q s

theorem State.readAhead_waitFrame : WaitFrame q s (s.readAhead q) := by
  unfold State.readAhead
  dsimp only
  split
  · exact .refl q s
  · exact s.readBlocks_waitFrame q _

/-- What a WAIT that completes leaves of its queue (R415, R418, R443): the WAITs that are pending, WAIT_ERR with the error bit
of its counter, and COMPLETED. -/
structure WaitEnds (q : QueueId) (place : Place) (err : Bool) (s t : State) : Prop where
  frame : OvenFrame s t
  waits : (t.work q).waits = (s.work q).waits
  waitErr : (t.queue q).waitErr = ((s.queue q).waitErr || err)
  completed : ∀ i, place = .ring i → (t.queue q).completed = advanceCnt (s.queue q).completed 1

/-- The completion of a WAIT, once its error is noted and what it cancels discarded. -/
theorem State.finish_readAhead_waitEnds (place : Place) (h : Header) :
    WaitEnds q place false s ((s.finish q place h).readAhead q) := by
  have hbook := s.finish_bookkeeping q place h
  have hread := (s.finish q place h).readAhead_waitFrame q
  refine ⟨hbook.frame.trans hread.frame, hread.waits.trans hbook.waits, ?_, ?_⟩
  · rw [hread.waitErr, hbook.waitErr, Bool.or_false]
  · rintro i rfl
    rw [hread.completed, s.finish_ring_completed q]

/-- WAIT_ERR takes the error bit of the counter (R415). -/
def State.noteWaitErr (s : State) (q : Nat) (err : Bool) : State :=
  if err then s.setQueue q { s.queue q with waitErr := true } else s

theorem State.noteWaitErr_spec (err : Bool) :
    OvenFrame s (s.noteWaitErr q err) ∧ ((s.noteWaitErr q err).work q).waits = (s.work q).waits ∧
      ((s.noteWaitErr q err).queue q).waitErr = ((s.queue q).waitErr || err) ∧
      ((s.noteWaitErr q err).queue q).completed = (s.queue q).completed := by
  cases err with
  | false => exact ⟨rfl, rfl, (Bool.or_false _).symm, rfl⟩
  | true =>
    have hqueue : (s.noteWaitErr q true).queue q = { s.queue q with waitErr := true } := s.queue_setQueue_same q _
    exact ⟨rfl, rfl, by rw [hqueue, Bool.or_true], by rw [hqueue]⟩

/-- In CANCEL mode an error discards what follows the WAIT, in its ring or its bake (R418). -/
def State.cancelRest (s : State) (q : Nat) (place : Place) (host : List HostReply) (cancels : Bool) : State :=
  if cancels then
    match place with
    | .ring _ => s.cancelRing q host
    | .node n _ => s.cancelBake q n
  else s

theorem State.cancelRest_waitFrame (place : Place) (host : List HostReply) (cancels : Bool) :
    WaitFrame q s (s.cancelRest q place host cancels) := by
  cases cancels with
  | false => exact .refl q s
  | true =>
    cases place with
    | ring i => exact s.cancelRing_waitFrame q host
    | node n i => exact s.cancelBake_waitFrame q n

theorem State.waitDone_eq (q : Nat) (w : PendingWait) (host : List HostReply) :
    s.waitDone q w host = ((((s.noteWaitErr q (s.counter w.counter).err).cancelRest q w.place host
      ((s.counter w.counter).err && w.cancel)).finish q w.place w.header).readAhead q) := rfl

theorem State.waitDone_waitEnds (w : PendingWait) (host : List HostReply) :
    WaitEnds q w.place (s.counter w.counter).err s (s.waitDone q w host) := by
  rw [State.waitDone_eq]
  generalize (s.counter w.counter).err = err
  obtain ⟨nframe, nwaits, nerr, ncompleted⟩ := s.noteWaitErr_spec q err
  have hrest := (s.noteWaitErr q err).cancelRest_waitFrame q w.place host (err && w.cancel)
  generalize (s.noteWaitErr q err).cancelRest q w.place host (err && w.cancel) = c at hrest
  have hends := c.finish_readAhead_waitEnds q w.place w.header
  refine ⟨(nframe.trans hrest.frame).trans hends.frame, hends.waits.trans (hrest.waits.trans nwaits), ?_, fun i hi => ?_⟩
  · rw [hends.waitErr, hrest.waitErr, nerr, Bool.or_false]
  · rw [hends.completed i hi, hrest.completed, ncompleted]

end

/-- A WAIT for 0 completes at once (R443). -/
theorem wait_zero {x : Issue} {o : WaitOps} {s : State} {r : List Byte} {hw : Hw}
    (h : Safety.offers s x 0x01 (fun r => readWait r = o) r hw)
    (hc : s.headerCheck x.queue 0x01 x.header (noCells x.header) false = none) (hn : o.counter.toNat < 4096)
    (hmode : o.mode.toNat ≤ 1) (htarget : o.target = 0) :
    ∃ t, exec (.wait x o) s = .next t ∧
      WaitEnds x.queue x.place (s.counter o.counter.toNat).err (s.taken x) t := by
  have hzero : o.target.toNat = 0 := by rw [htarget]; rfl
  refine ⟨_, rfl, ?_⟩
  have hsmall : o.target.toNat < 2 ^ 63 := by rw [hzero]; decide
  rw [State.issue_accepted h (fun r hr => decide_eq_true hr)
    (by simp only [hc, hn, hmode, hsmall, decide_true, failUnless_true, firstFault_none, firstFault_nil]) (by decide)]
  have hreached : (s.taken x).reached o.counter.toNat o.target.toNat = true := by
    simp only [State.reached, hzero, Nat.zero_le, decide_true, Bool.true_or]
  dsimp only
  rw [if_pos hreached]
  have hdone := (s.taken x).waitDone_waitEnds x.queue
    ⟨x.place, x.header, o.counter.toNat, o.target.toNat, o.mode == 1⟩ hw.host
  rw [(Offered.of_offers h).taken_counter] at hdone
  generalize (s.taken x).waitDone x.queue _ hw.host = t at hdone
  have hend : WaitFrame x.queue t (State.conclude x 0x01 (.ok t .own)) :=
    (t.progress_waitFrame x.queue 1).trans
      ((State.settle_waitFrame x.queue _).trans (State.yield_waitFrame x.queue _))
  exact ⟨hdone.frame.trans hend.frame, hend.waits.trans hdone.waits, hend.waitErr.trans hdone.waitErr,
    fun i hi => hend.completed.trans (hdone.completed i hi)⟩

/-! ### Resets and stops of queues -/

/-- A RESET of a queue that is RESETTING or FAULTED (R440). -/
theorem reset_again {x : Issue} {o : ControlOps} {s : State} {r : List Byte} {hw : Hw}
    (h : Safety.offers s x 0x0B (fun r => readControl r = o ∧ recNat r 9 1 = 5) r hw)
    (hc : s.controlCheck x o 5 = none)
    (hk : (s.queue o.target.toNat).state = .resetting ∨ (s.queue o.target.toNat).state = .faulted) :
    ∃ t, exec (.reset x o) s = .next t ∧ Bookkeeping x.queue (s.taken x) t := by
  have hoff := Offered.of_offers h
  refine ⟨_, rfl, ?_⟩
  unfold State.control
  rw [State.issue_accepted h (fun r hr => decide_eq_true hr) hc (by decide)]
  have hstate : ((s.taken x).queue o.target.toNat).state = .resetting ∨
      ((s.taken x).queue o.target.toNat).state = .faulted := by
    obtain ⟨hd, hq⟩ := hoff.taken_queue_eq o.target.toNat
    rw [hq]
    exact hk
  dsimp only
  rw [State.faultQueue_again hstate]
  exact State.conclude_now_bookkeeping x 0x0B (s.taken x)

/-- The checks of a QUEUE_CTL refuse a STOP or RESET of the issuing queue (R441). -/
theorem State.controlCheck_own {s : State} {x : Issue} {o : ControlOps} {action : Nat} (ha : action = 3 ∨ action = 5)
    (ho : o.target.toNat = x.queue.val) (hc : s.headerCheck x.queue 0x0B x.header (noCells x.header) false = none) :
    s.controlCheck x o action = some (operandFault 8) := by
  have hlt : x.queue.val < 64 := x.queue.isLt
  have hspan : ¬ (action = 1 ∨ action = 2) := by omega
  have hstops : (action == 3 || action == 5) = true := by
    rcases ha with rfl | rfl <;> rfl
  simp only [State.controlCheck, hc, if_neg hspan, hstops, ho, hlt, beq_self_eq_true, Bool.and_self, Bool.not_true,
    decide_true, failUnless_true, failUnless_false, firstFault_none, firstFault_some]

/-- A QUEUE_CTL that its checks refuse. -/
theorem State.control_refused {s : State} {x : Issue} {o : ControlOps} {action : Nat} {r : List Byte} {hw : Hw}
    (h : Safety.offers s x 0x0B (fun r => readControl r = o ∧ recNat r 9 1 = action) r hw) {f : QFault}
    (hf : s.controlCheck x o action = some f) (run : State → State) :
    Refused s (s.control x o action run) x 0x0B f.cause :=
  State.issue_refused_spec h (fun _ hr => decide_eq_true hr) hf _

/-- A controlled queue is not the issuing one where the checks of a RESET pass. -/
theorem State.controlCheck_target {s : State} {x : Issue} {o : ControlOps} (hc : s.controlCheck x o 5 = none) :
    o.target.toNat ≠ x.queue.val := by
  intro he
  cases hh : s.headerCheck x.queue 0x0B x.header (noCells x.header) false with
  | none => simp only [State.controlCheck_own (.inr rfl) he hh, reduceCtorEq] at hc
  | some f => simp only [State.controlCheck, hh, firstFault_some, reduceCtorEq] at hc

/-! ### The obligations -/

/-- Settles O58: a record that fails a check is refused (`Refused`), and one that ends at once leaves, beside its own effect on
the state it was taken from, `Bookkeeping` of the issuing queue; a WAIT for 0 is followed step by step (`WaitEnds`). -/
theorem ovenEdgeRules : Obligations.OvenEdgeRules := by
  refine ⟨?ring, ?wait, ?drop, ?bake⟩
  case ring =>
    intro x o s r hw h hc ht hn
    have hoff := Offered.of_offers h
    refine ⟨fun hp => ?_, fun hp => ?_⟩
    · obtain ⟨t, hexec, hbook⟩ := ring_parked h hc ht hn hp
      obtain ⟨hwakes, hsettings⟩ := hoff.addWakes_target _ _ hbook
      exact ⟨t, hexec, hwakes, hsettings, hoff.actsInOven ((State.addWakes_ovenFrame _ _ _).trans hbook.frame)
        (hbook.head.trans (State.addWakes_head _ _ _ _))⟩
    · obtain ⟨t, hexec, href⟩ := ring_notParked h hc ht hn hp
      exact ⟨t, hexec, href.faulted, href.others, href.acts⟩
  case wait =>
    intro x o s r hw h hc hn hmode htarget
    have hoff := Offered.of_offers h
    obtain ⟨t, hexec, hends⟩ := wait_zero h hc hn hmode htarget
    refine ⟨t, hexec, ?_, ?_, fun i hi => ?_, hoff.onlyFetched hends.frame, hoff.sameUnits hends.frame⟩
    · rw [hends.waits, hoff.taken_work]
    · rw [hends.waitErr, hoff.taken_queue]
    · rw [hends.completed i hi, hoff.taken_queue]
  case drop =>
    intro x recipe s r hw h hc hr hnone
    have hoff := Offered.of_offers h
    obtain ⟨t, hexec, hbook⟩ := recipeDrop_bookkeeping h hc hr
    refine ⟨t, hexec, fun id => ?_, fun q hq => ?_, hoff.actsInOven hbook.frame hbook.head⟩
    · have hrecipes : t.recipe id = ((s.taken x).dropRecipe recipe.toNat).recipe id :=
        congrArg (Sparse.get none · id) hbook.recipes
      rw [hrecipes, State.recipe_dropRecipe ((hoff.taken_recipe _).trans hnone), hoff.taken_recipe]
    · have hne : q.val ≠ x.queue.val := fun e => hq (Fin.ext e)
      obtain ⟨hqueue, hwork⟩ := hbook.others q hne
      exact ⟨hqueue.trans (hoff.taken_queue_other hne), hwork.trans (hoff.taken_work_other hne)⟩
  case bake =>
    intro x o s r hw i h hi hc hr hn hzero hparams hnone
    obtain ⟨t, hexec, href⟩ := bake_refused h (State.bakeCheck_notLoaded hc hr hn hzero hparams hnone)
    exact ⟨t, hexec, href.faulted, by rw [href.work, (Offered.of_offers h).taken_bakes hi], href.acts⟩

/-- Settles O59: a fault of a queue that is RESETTING or FAULTED leaves the state as it is (`State.faultQueue_again`), so that a
RESET of such a target is the bookkeeping of the issuing queue alone; and the last check of a QUEUE_CTL refuses the issuing
queue as the target of a STOP or RESET (`State.controlCheck_own`). -/
theorem queueResetEdgeRules : Obligations.QueueResetEdgeRules := by
  refine ⟨fun s q opcode recipe node position f h => State.faultQueue_again (.inl h) opcode recipe node position f,
    ?again, ?own⟩
  case again =>
    rintro x o s r hw k rfl h hc hk
    have hoff := Offered.of_offers h
    have hne := State.controlCheck_target hc
    obtain ⟨t, ht, hbook⟩ := reset_again h hc hk
    obtain ⟨hqueue, hwork⟩ := hbook.others _ hne
    exact ⟨t, ht, hqueue.trans (hoff.taken_queue_other hne), hwork.trans (hoff.taken_work_other hne),
      hbook.faultEntry.trans hoff.taken_faultEntry, hoff.actsInOven hbook.frame hbook.head⟩
  case own =>
    intro x o s r hw action i c hact hi ho h hc
    have hcheck := State.controlCheck_own (hact.imp And.left And.left) ho hc
    obtain ⟨run, hexec⟩ : ∃ run, exec c s = .next (s.control x o action run) := by
      rcases hact with ⟨rfl, rfl⟩ | ⟨rfl, rfl⟩ <;> exact ⟨_, rfl⟩
    have href := State.control_refused h hcheck run
    refine ⟨_, hexec, href.faulted, ?_, href.acts⟩
    rw [href.work, (Offered.of_offers h).taken_work]

end Sys2Proof.Machine
end
